-- ==== Sys2Proof/Word.lean ====
section
/-! DEFINITION. The widths of the CRC-8/PEC core's values (00_scope.md R7, R9): every value is
an unsigned integer of a stated width. -/

namespace Sys2Proof

/-- `u8`: a register's contents, a table entry, a response byte. -/
abbrev Byte := BitVec 8

/-- `u7`: a PMBus device address (R24). -/
abbrev Addr7 := BitVec 7

/-- `u16`: the command word one transaction carries, bit 15 most significant (R45, R60). -/
abbrev CmdWord := BitVec 16

end Sys2Proof
end

