-- ==== Sys2Proof/Syntax.lean ====
section
/-! DEFINITION. The commands (30_encoding.md R62), the causes of illegality (60_exceptions.md
R172) and the assembler's statements (R66, R67). -/

namespace Sys2Proof

/-- One constructor per row of spec/opcode_table.json. An operand's type is its form's width
(R61), so every term stands for a word. -/
inductive Instr where
  /-- The reserved row, OP = 0x0: any of the 4096 words 0x0000 to 0x0FFF, with its low 12 bits.
  Its whole meaning is to be illegal with cause 1 (R64(a), R172). Log entry 5. -/
  | reserved (low : BitVec 12)
  /-- `TBL_RD idx` (R82). -/
  | tblRd (idx : Byte)
  /-- `CRC_INIT v` (R104). -/
  | crcInit (v : Byte)
  /-- `CRC_ACC b` (R105). -/
  | crcAcc (b : Byte)
  /-- `CRC_RD` (R106). -/
  | crcRd
  /-- `SET_ADDR a` (R140). -/
  | setAddr (a : Addr7)
  /-- `SET_CMD c` (R141). -/
  | setCmd (c : Byte)
  /-- `SET_DLEN d` (R142). -/
  | setDlen (d : Byte)
  /-- `SET_BCNT n` (R143). -/
  | setBcnt (n : Byte)
  /-- `V_BEGIN` (R144). -/
  | vBegin
  /-- `V_PUSH b` (R145). -/
  | vPush (b : Byte)
  /-- `V_END` (R146). -/
  | vEnd
  /-- `RD_STATUS` (R147). -/
  | rdStatus
  /-- `RD_EXP` (R148). -/
  | rdExp
  /-- `RD_ACT` (R149). -/
  | rdAct
  /-- `RD_ECAUSE` (R150). -/
  | rdEcause
  deriving DecidableEq, Repr

/-- Why a command is illegal (R172). Cause 0, "no illegal command since reset", is not a cause
of any command. -/
inductive Cause where
  /-- 1: OP = 0x0. -/
  | rsvdOp
  /-- 2: the field Z is not zero. -/
  | rsvdField
  /-- 3: IMM is not zero on a none-form command. -/
  | immNonzero
  /-- 4: IMM[7] = 1 on SET_ADDR. -/
  | addrRange
  /-- 5: a command not permitted while VST = COLLECT. -/
  | busy
  /-- 6: a command not permitted while VST = IDLE. -/
  | notOpen
  deriving DecidableEq, Repr

/-- What decoding a word gives: a command, or an illegal cause (R63). -/
inductive Decoded where
  | command (i : Instr)
  | illegal (c : Cause)
  deriving DecidableEq, Repr

/-- The mnemonics an assembly line may begin with: the 15 commands (R62) and the five
pseudo-instructions (R67). -/
inductive Mnemonic where
  | tblRd | crcInit | crcAcc | crcRd | setAddr | setCmd | setDlen | setBcnt
  | vBegin | vPush | vEnd | rdStatus | rdExp | rdAct | rdEcause
  | crcClr | crcBytes | vSetup | vFrame | validate
  deriving DecidableEq, Repr

/-- One line of assembly, read into its mnemonic and its operands, which are numbers of any size
until they are checked (R66). -/
structure SourceLine where
  mnemonic : Mnemonic
  operands : List Nat
  deriving DecidableEq, Repr

end Sys2Proof
end

