-- ==== Sys2Proof/WellFormed.lean ====
section
/-! DEFINITION. The checks of 30_encoding.md R66 on an assembly line: the number of operands
its mnemonic takes, and that each operand fits its form, "rather than truncating it".

A term of `Instr` needs no check: each operand's type has exactly its form's width. -/

namespace Sys2Proof

/-- An operand that fits the u8 form: 0 to 255 (R66). -/
def fitsU8 (n : Nat) : Bool := n < 256

/-- An operand that fits the u7 form: 0 to 127 (R66). -/
def fitsU7 (n : Nat) : Bool := n < 128

/-- The operands fit the mnemonic's forms, in number and in size. A none-form mnemonic takes
none (R66). The operand lists of the pseudo-instructions are R67's; where R67 writes
`b0, ..., bk`, at least one operand stands there (DEDUCED, log entry 11). -/
def operandsFit (m : Mnemonic) (ops : List Nat) : Bool :=
  match m, ops with
  | .crcRd, [] | .vBegin, [] | .vEnd, [] => true
  | .rdStatus, [] | .rdExp, [] | .rdAct, [] | .rdEcause, [] => true
  | .crcClr, [] => true
  | .tblRd, [n] | .crcInit, [n] | .crcAcc, [n] => fitsU8 n
  | .setCmd, [n] | .setDlen, [n] | .setBcnt, [n] | .vPush, [n] => fitsU8 n
  | .setAddr, [a] => fitsU7 a
  | .crcBytes, b :: bs => (b :: bs).all fitsU8
  | .vSetup, [a, c, d, n] => fitsU7 a && [c, d, n].all fitsU8
  | .vFrame, r :: rs => (r :: rs).all fitsU8
  | .validate, a :: c :: d :: n :: r :: rs => fitsU7 a && (c :: d :: n :: r :: rs).all fitsU8
  | _, _ => false

/-- A line the assembler accepts (R66). -/
def SourceLine.wellFormed (l : SourceLine) : Bool := operandsFit l.mnemonic l.operands

end Sys2Proof
end

