-- ==== Sys2Proof/Decode.lean ====
section
/-! DEFINITION. Decoding and encoding of command words (30_encoding.md R60 to R65). -/

namespace Sys2Proof

/-! ## Fields of a word (R60) -/

/-- OP, bits 15:12. -/
def opField (w : CmdWord) : BitVec 4 := w.extractLsb' 12 4

/-- Z, bits 11:8. -/
def zField (w : CmdWord) : BitVec 4 := w.extractLsb' 8 4

/-- IMM, bits 7:0: the u8 operand, "not extended, scaled or shifted" (R61). -/
def immField (w : CmdWord) : Byte := w.extractLsb' 0 8

/-- IMM[6:0], the u7 operand (R61). -/
def addrOf (imm : Byte) : Addr7 := imm.extractLsb' 0 7

/-- The bits below OP, which the reserved row leaves free. -/
def lowField (w : CmdWord) : BitVec 12 := w.extractLsb' 0 12

/-! ## Decoding -/

/-- The three operand forms (R61). -/
inductive OperandForm where
  | u8 | u7 | noOperand
  deriving DecidableEq, Repr

/-- The form of the command an operation code selects (R62). -/
def formOf (op : BitVec 4) : OperandForm :=
  match op.toNat with
  | 0x4 | 0x9 | 0xB | 0xC | 0xD | 0xE | 0xF => .noOperand
  | 0x5 => .u7
  | _ => .u8

/-- The command of an operation code 0x1 to 0xF with its operand (R62). Code 0x0 never reaches
it: `decode` has answered before. -/
def commandOf (op : BitVec 4) (imm : Byte) : Instr :=
  match op.toNat with
  | 0x1 => .tblRd imm
  | 0x2 => .crcInit imm
  | 0x3 => .crcAcc imm
  | 0x4 => .crcRd
  | 0x5 => .setAddr (addrOf imm)
  | 0x6 => .setCmd imm
  | 0x7 => .setDlen imm
  | 0x8 => .setBcnt imm
  | 0x9 => .vBegin
  | 0xA => .vPush imm
  | 0xB => .vEnd
  | 0xC => .rdStatus
  | 0xD => .rdExp
  | 0xE => .rdAct
  | 0xF => .rdEcause
  | _ => .reserved (imm.setWidth 12)

/-- R63, the checks in its order. A word with OP = 0x0 is the opcode table's reserved row, whose
meaning raises cause 1; the other decode checks give their cause here. -/
def decode (w : CmdWord) : Decoded :=
  if opField w = 0x0 then .command (.reserved (lowField w))
  else if zField w ≠ 0x0 then .illegal .rsvdField
  else if formOf (opField w) = .noOperand ∧ immField w ≠ 0x00 then .illegal .immNonzero
  else if formOf (opField w) = .u7 ∧ (immField w).getLsbD 7 = true then .illegal .addrRange
  else .command (commandOf (opField w) (immField w))

/-- The word of an opcode-table row, its bits numbered as the table numbers them. A command is
one 16-bit word carried whole (R45, R65), so bits above 15 stand for nothing. -/
def tableWord (nbits w : Nat) : CmdWord := BitVec.ofNat 16 (w % 2 ^ nbits)

/-- The instruction the decoder reads from an opcode-table row's bits; none where it refuses. -/
def decodeTableWord (nbits w : Nat) : Option Instr :=
  match decode (tableWord nbits w) with
  | .command i => some i
  | .illegal _ => none

/-! ## Encoding -/

/-- A legal word: OP, Z = 0000, IMM (R60). -/
def wordOf (op : BitVec 4) (imm : Byte) : CmdWord := (op ++ 0x0#4) ++ imm

/-- The word of a command (R62). -/
def encode (i : Instr) : CmdWord :=
  match i with
  | .reserved low => 0x0#4 ++ low
  | .tblRd idx => wordOf 0x1 idx
  | .crcInit v => wordOf 0x2 v
  | .crcAcc b => wordOf 0x3 b
  | .crcRd => wordOf 0x4 0x00
  | .setAddr a => wordOf 0x5 (a.setWidth 8)
  | .setCmd c => wordOf 0x6 c
  | .setDlen d => wordOf 0x7 d
  | .setBcnt n => wordOf 0x8 n
  | .vBegin => wordOf 0x9 0x00
  | .vPush b => wordOf 0xA b
  | .vEnd => wordOf 0xB 0x00
  | .rdStatus => wordOf 0xC 0x00
  | .rdExp => wordOf 0xD 0x00
  | .rdAct => wordOf 0xE 0x00
  | .rdEcause => wordOf 0xF 0x00

end Sys2Proof
end

