-- ==== Sys2Proof/Config.lean ====
section
/-! DEFINITION. What the spec leaves open and the model therefore leaves free. The parameters
whose values R7 fixes are constants in Machine/Params.lean. PORT_PROTOCOL and
CMD_SERIALISATION are read by no rule, and R7 lets a model leave them out (log entry 7). -/

namespace Sys2Proof

/-- What a `w`-bit register holds at power-up, before the first reset: "an arbitrary draw"
(70_reset_and_hazards.md R191). `register` is the register's place in R20's table, so that the
registers are drawn independently. It has no body: nothing can be proved of its value.
DESIGN CHOICE, safe (log entry 4). -/
opaque Config.powerUpDraw (w register : Nat) : BitVec w

end Sys2Proof
end

