-- ==== Sys2Proof/Machine/Params.lean ====
section
/-! DEFINITION. The parameters whose values 00_scope.md R7 fixes. -/

namespace Sys2Proof.Machine

/-- The CRC polynomial x^8 + x^2 + x + 1 without its x^8 term (R2, R7). -/
def polynomial : Byte := 0x07

/-- The initial CRC of a PEC, "no pre-seed" (R7, R101). -/
def pecSeed : Byte := 0x00

/-- The largest byte count that validates; the smallest is 1 (R7, R124). -/
def maxByteCount : Byte := 0x08

/-- The fewest response bytes that can be validated (R7, R125). -/
def minResponse : Nat := 2

/-- Where RCNT saturates (R7, R30). -/
def rcntMax : Byte := 0xFF

/-- CODE values (10_state.md R31). -/
def codeNone : BitVec 3 := 0
def codeValid : BitVec 3 := 1
def codeMismatch : BitVec 3 := 2
def codeInvalidLength : BitVec 3 := 3
def codeEmptyResponse : BitVec 3 := 4

/-- The number ECAUSE holds for a cause (60_exceptions.md R172). -/
def causeCode (c : Cause) : Byte :=
  match c with
  | .rsvdOp => 1
  | .rsvdField => 2
  | .immNonzero => 3
  | .addrRange => 4
  | .busy => 5
  | .notOpen => 6

end Sys2Proof.Machine
end

