-- ==== Sys2Proof/Machine/Crc.lean ====
section
/-! DEFINITION. The CRC-8 table and the accumulation over it, the source's pure functions
(40_table_generator.md R80, R81; 41_accumulator.md R100), normative by 00_scope.md R6. -/

namespace Sys2Proof.Machine

/-- One round of R80: shift left, and fold the polynomial in if the high bit was set. -/
def genRound (b : Byte) : Byte :=
  if b.getLsbD 7 = true then (b <<< 1) ^^^ polynomial else b <<< 1

/-- R80, `GenTable(i)`: eight rounds. -/
def genTable (i : Byte) : Byte :=
  genRound (genRound (genRound (genRound (genRound (genRound (genRound (genRound i)))))))

/-- R80, `generate_table()`: the 256 entries in index order. It is the content of TABLE, a
constant that no command and no reset writes (R22); it is no field of State (log entry 6). -/
def table : List Byte := (List.range 256).map fun n => genTable (BitVec.ofNat 8 n)

/-- The read `T[i]` of the table ROM (R40, R54). Every index is addressable. -/
def tableRead (i : Byte) : Byte := table.getD i.toNat 0x00

/-- R100, `Accumulate(init, bs)`. -/
def accumulate (init : Byte) (bs : List Byte) : Byte :=
  match bs with
  | [] => init
  | b :: rest => accumulate (tableRead (init ^^^ b)) rest

end Sys2Proof.Machine
end

