-- ==== Sys2Proof/Machine/Frame.lean ====
section
/-! DEFINITION. The frame builder and the validator as pure functions (42_frame_validator.md R120
to R127), normative by 00_scope.md R6. The commands are bound to them by R151. -/

namespace Sys2Proof.Machine

/-- `(zext_8(a) << 1) OR 0x00` (R120, R122). -/
def writeAddrByte (a : Addr7) : Byte := (a.setWidth 8 <<< 1) ||| 0x00

/-- `(zext_8(a) << 1) OR 0x01` (R120, R122). -/
def readAddrByte (a : Addr7) : Byte := (a.setWidth 8 <<< 1) ||| 0x01

/-- The first five bytes of a frame, in the order of 90_conflicts.md C1 (R120). -/
def headerBytes (a : Addr7) (c d n : Byte) : List Byte :=
  [writeAddrByte a, c, d, n, readAddrByte a]

/-- `byte_count = 0` or `byte_count > 8` (R124). -/
def badByteCount (n : Byte) : Bool := n = 0x00 || maxByteCount < n

/-- R120, `BuildFrame`; `none` is the source's `InvalidLength`. The last response byte is left
out: it is the PEC (R123). -/
def buildFrame (a : Addr7) (c d n : Byte) (r : List Byte) : Option (List Byte) :=
  if badByteCount n then none else some (headerBytes a c d n ++ r.dropLast)

/-- The results of `Validate` (R11, R121). -/
inductive Verdict where
  | valid
  | mismatch (expected actual : Byte)
  | invalidLength
  | emptyResponse
  deriving DecidableEq, Repr

/-- R121, `Validate`: byte_count is checked first (R126), then the response's length (R125). -/
def validate (a : Addr7) (c d n : Byte) (r : List Byte) : Verdict :=
  match buildFrame a c d n r with
  | none => .invalidLength
  | some frame =>
    if r.length < minResponse then .emptyResponse
    else if accumulate pecSeed frame = r.getLastD 0x00 then .valid
    else .mismatch (accumulate pecSeed frame) (r.getLastD 0x00)

end Sys2Proof.Machine
end

