-- ==== Sys2Proof/Machine/State.lean ====
section
/-! DEFINITION. The state of the core (10_state.md R20), the state after reset (R38) and the
state at power-up (R39, R191). -/

namespace Sys2Proof.Machine

/-- The validator's state, one bit: 0 = IDLE, 1 = COLLECT (R28). -/
inductive Vst where
  | idle
  | collect
  deriving DecidableEq, Repr

/-- One thing the host does to the core between commands: it issues a command word on the
command port (R5, R21), or it applies the reset input (R190). -/
inductive Input where
  | command (w : CmdWord)
  | reset
  deriving DecidableEq, Repr

/-- The registers of R20, each under its own name, and the model's own `inputs`. TABLE is a
constant (`table`) and STATUS is computed (`statusByte`). -/
structure State where
  /-- CRC: the running CRC-8 (R23). -/
  crc : Byte
  /-- DADDR: the device address (R24). -/
  daddr : Addr7
  /-- CMD: the PMBus command code (R25). -/
  cmd : Byte
  /-- DLEN: the declared-length byte (R26). -/
  dlen : Byte
  /-- BCNT: the byte count (R27). -/
  bcnt : Byte
  /-- VST: the validator's state (R28). -/
  vst : Vst
  /-- PEND: the held-back last response byte (R29). -/
  pend : Byte
  /-- RCNT: response bytes pushed, saturating (R30). -/
  rcnt : Byte
  /-- CODE: the result code of the last validation (R31). -/
  code : BitVec 3
  /-- EXP: `expected` of the last validation (R32). -/
  exp : Byte
  /-- ACT: `actual` of the last validation (R33). -/
  act : Byte
  /-- ECAUSE: the first illegal-command cause since reset (R34). -/
  ecause : Byte
  /-- RDATA: the response byte of the most recent command (R35). -/
  rdata : Byte
  /-- THE MODEL'S OWN, not a register: what the host does next, oldest first (R21, R48). The core
  buffers nothing; the list stands for the host's choices (DESIGN CHOICE, log entry 1). -/
  inputs : List Input
  deriving DecidableEq, Repr

/-- Reasons to stop with a fault. There is none: "A run never ends in a fault" (R197), and an
illegal command is recorded in ECAUSE while the core goes on (R171). Log entry 8. -/
inductive Fault where
  deriving DecidableEq, Repr

/-- Reasons to refuse an instruction. -/
inductive Refusal where
  /-- Raised by an arm of `exec` whose instruction has no meaning yet, by its mnemonic; safe (the
  machine stops). No arm raises it in this model. -/
  | notModelled (mnemonic : String)
  deriving DecidableEq, Repr

/-- The machine right after reset, every register as R38 states it, with nothing offered by the
host yet. -/
def State.reset : State where
  crc := 0x00
  daddr := 0x00
  cmd := 0x00
  dlen := 0x01
  bcnt := 0x00
  vst := .idle
  pend := 0x00
  rcnt := 0x00
  code := codeNone
  exp := 0x00
  act := 0x00
  ecause := 0x00
  rdata := 0x00
  inputs := []

/-- The machine at power-up, before the first reset: every register an arbitrary draw (R39,
R191), the host about to do `inputs`. Log entry 4. -/
def State.powerUp (inputs : List Input) : State where
  crc := Config.powerUpDraw 8 0
  daddr := Config.powerUpDraw 7 1
  cmd := Config.powerUpDraw 8 2
  dlen := Config.powerUpDraw 8 3
  bcnt := Config.powerUpDraw 8 4
  vst := if Config.powerUpDraw 1 5 = 1 then .collect else .idle
  pend := Config.powerUpDraw 8 6
  rcnt := Config.powerUpDraw 8 7
  code := Config.powerUpDraw 3 8
  exp := Config.powerUpDraw 8 9
  act := Config.powerUpDraw 8 10
  ecause := Config.powerUpDraw 8 11
  rdata := Config.powerUpDraw 8 12
  inputs := inputs

end Sys2Proof.Machine
end

