-- ==== Sys2Proof/Machine/Operands.lean ====
section
/-! DEFINITION. What the commands compute from the registers: the header of the frame and the
fold of a byte into CRC. The forms of an operand inside a word (R61) are in Decode.lean. -/

namespace Sys2Proof.Machine

/-- V_BEGIN's `h`, from DADDR, CMD, DLEN and BCNT (R144). -/
def headerOf (s : State) : List Byte := headerBytes s.daddr s.cmd s.dlen s.bcnt

/-- `T[CRC XOR b]`, the accumulation step (R100, R105, R145). -/
def foldByte (s : State) (b : Byte) : Byte := tableRead (s.crc ^^^ b)

/-- RCNT after one more push, saturating at 255 (R30, R145). -/
def countPush (n : Byte) : Byte := if n < rcntMax then n + 1 else n

end Sys2Proof.Machine
end

