-- ==== Sys2Proof/Machine/Ops.lean ====
section
/-! DEFINITION. The operations the commands share: answering, the illegal command, the two
state-dependent checks, and reset. The core has no trap entry and no return from one (60_exceptions.md
R176, R177): `takeIllegal` is all that happens on a condition. -/

namespace Sys2Proof.Machine

/-- `RDATA <- v`: the response byte of the current command (R10, R35). -/
def respond (v : Byte) (s : State) : State := { s with rdata := v }

/-- R171, "An illegal command has exactly this effect": the first cause since reset is kept, the
response is 0x00, and no other register changes. -/
def takeIllegal (c : Cause) (s : State) : State :=
  { s with
    ecause := if s.ecause = 0x00 then causeCode c else s.ecause
    rdata := 0x00 }

/-- A command permitted only while VST = IDLE: in COLLECT it is illegal with cause 5 (R173). -/
def whileIdle (s effect : State) : Host.Outcome State Fault Refusal :=
  match s.vst with
  | .idle => .next effect
  | .collect => .next (takeIllegal .busy s)

/-- A command permitted only while VST = COLLECT: in IDLE it is illegal with cause 6 (R173). -/
def whileOpen (s effect : State) : Host.Outcome State Fault Refusal :=
  match s.vst with
  | .idle => .next (takeIllegal .notOpen s)
  | .collect => .next effect

/-- R190, `on Reset`: every register to its value of R38. What the host does next is not the
core's to clear. -/
def applyReset (s : State) : State := { State.reset with inputs := s.inputs }

end Sys2Proof.Machine
end

