-- ==== Sys2Proof/Machine/Accumulator.lean ====
section
/-! DEFINITION. The accumulator's commands (41_accumulator.md R104 to R106). -/

namespace Sys2Proof.Machine

/-- CRC_INIT v (R104). -/
def execCrcInit (v : Byte) (s : State) : Host.Outcome State Fault Refusal :=
  whileIdle s (respond v { s with crc := v })

/-- CRC_ACC b (R105): CRC is read before it is written, and the response is the new value. -/
def execCrcAcc (b : Byte) (s : State) : Host.Outcome State Fault Refusal :=
  whileIdle s (respond (foldByte s b) { s with crc := foldByte s b })

/-- CRC_RD (R106), legal in both validator states. -/
def execCrcRd (s : State) : Host.Outcome State Fault Refusal :=
  .next (respond s.crc s)

end Sys2Proof.Machine
end

