-- ==== Sys2Proof/Machine/FrameParams.lean ====
section
/-! DEFINITION. The commands that set the frame's parameters (42_frame_validator.md R140 to R143).
No value is out of range for a register: every u7 and u8 is stored. -/

namespace Sys2Proof.Machine

/-- SET_ADDR a (R140). A word with IMM[7] = 1 never reaches it: `decode` gives cause 4. -/
def execSetAddr (a : Addr7) (s : State) : Host.Outcome State Fault Refusal :=
  whileIdle s (respond (a.setWidth 8) { s with daddr := a })

/-- SET_CMD c (R141). -/
def execSetCmd (c : Byte) (s : State) : Host.Outcome State Fault Refusal :=
  whileIdle s (respond c { s with cmd := c })

/-- SET_DLEN d (R142). -/
def execSetDlen (d : Byte) (s : State) : Host.Outcome State Fault Refusal :=
  whileIdle s (respond d { s with dlen := d })

/-- SET_BCNT n (R143): n = 0 and n ≥ 9 are stored unchanged. -/
def execSetBcnt (n : Byte) (s : State) : Host.Outcome State Fault Refusal :=
  whileIdle s (respond n { s with bcnt := n })

end Sys2Proof.Machine
end

