-- ==== Sys2Proof/Machine/Flags.lean ====
section
/-! DEFINITION. The status byte (10_state.md R31), the core's only flags (R36). It has no storage:
it is computed from ECAUSE, VST and CODE when read. -/

namespace Sys2Proof.Machine

/-- VST as the bit it is: 0 = IDLE, 1 = COLLECT (R28). -/
def vstBit (v : Vst) : BitVec 1 :=
  match v with
  | .idle => 0
  | .collect => 1

/-- ERR: 1 if ECAUSE is not 0 (R31, R34). -/
def errBit (ecause : Byte) : BitVec 1 := if ecause = 0x00 then 0 else 1

/-- `STATUS = (ERR << 7) OR (VST << 6) OR CODE` (R31). -/
def statusByte (s : State) : Byte :=
  ((errBit s.ecause).setWidth 8 <<< 7) ||| ((vstBit s.vst).setWidth 8 <<< 6) ||| s.code.setWidth 8

end Sys2Proof.Machine
end

