-- ==== Sys2Proof/Machine/ResultReads.lean ====
section
/-! DEFINITION. The reads of the result registers (42_frame_validator.md R147 to R150), all legal
in both validator states. -/

namespace Sys2Proof.Machine

/-- RD_STATUS (R147). -/
def execRdStatus (s : State) : Host.Outcome State Fault Refusal :=
  .next (respond (statusByte s) s)

/-- RD_EXP (R148). -/
def execRdExp (s : State) : Host.Outcome State Fault Refusal :=
  .next (respond s.exp s)

/-- RD_ACT (R149). -/
def execRdAct (s : State) : Host.Outcome State Fault Refusal :=
  .next (respond s.act s)

/-- RD_ECAUSE (R150): it does not clear ECAUSE. -/
def execRdEcause (s : State) : Host.Outcome State Fault Refusal :=
  .next (respond s.ecause s)

end Sys2Proof.Machine
end

