-- ==== Sys2Proof/Machine/TableGenerator.lean ====
section
/-! DEFINITION. TBL_RD and the reserved opcode. -/

namespace Sys2Proof.Machine

/-- TBL_RD idx (40_table_generator.md R82), legal in both validator states. -/
def execTblRd (idx : Byte) (s : State) : Host.Outcome State Fault Refusal :=
  .next (respond (tableRead idx) s)

/-- The reserved opcode 0x0: illegal with cause 1, whatever the other bits (30_encoding.md R63,
R64(a); 60_exceptions.md R172). -/
def execReserved (_low : BitVec 12) (s : State) : Host.Outcome State Fault Refusal :=
  .next (takeIllegal .rsvdOp s)

end Sys2Proof.Machine
end

