-- ==== Sys2Proof/Machine/Validator.lean ====
section
/-! DEFINITION. The validation sequence (42_frame_validator.md R144 to R146). -/

namespace Sys2Proof.Machine

/-- R144's register writes. BCNT is not checked here. -/
def beginValidation (s : State) : State :=
  { s with
    crc := accumulate pecSeed (headerOf s)
    vst := .collect
    rcnt := 0x00
    pend := 0x00
    code := codeNone
    exp := 0x00
    act := 0x00
    rdata := accumulate pecSeed (headerOf s) }

/-- V_BEGIN (R144), legal in both validator states; in COLLECT it restarts. -/
def execVBegin (s : State) : Host.Outcome State Fault Refusal :=
  .next (beginValidation s)

/-- R145's register writes: the held-back byte is folded once another follows it. -/
def pushByte (b : Byte) (s : State) : State :=
  { s with
    crc := if 1 ≤ s.rcnt then foldByte s s.pend else s.crc
    pend := b
    rcnt := countPush s.rcnt
    rdata := countPush s.rcnt }

/-- V_PUSH b (R145). -/
def execVPush (b : Byte) (s : State) : Host.Outcome State Fault Refusal :=
  whileOpen s (pushByte b s)

/-- Fewer than two response bytes were pushed (R125, R146). -/
def shortResponse (s : State) : Bool := s.rcnt < BitVec.ofNat 8 minResponse

/-- The result code of R146: the byte count is checked before the response's length (R126). -/
def resultCode (s : State) : BitVec 3 :=
  if badByteCount s.bcnt then codeInvalidLength
  else if shortResponse s then codeEmptyResponse
  else if s.crc = s.pend then codeValid
  else codeMismatch

/-- A result byte, EXP or ACT: 0x00 where a check failed (R32, R33, R146). -/
def resultByte (s : State) (v : Byte) : Byte :=
  if badByteCount s.bcnt || shortResponse s then 0x00 else v

/-- The registers a V_END writes before its response: the result and VST (R146). EXP is the CRC
over the header and the response without its last byte, ACT the PEC byte. -/
def closeValidation (s : State) : State :=
  { s with
    code := resultCode s
    exp := resultByte s s.crc
    act := resultByte s s.pend
    vst := .idle }

/-- V_END (R146): the response is STATUS, "computed after the writes above". -/
def execVEnd (s : State) : Host.Outcome State Fault Refusal :=
  whileOpen s (respond (statusByte (closeValidation s)) (closeValidation s))

end Sys2Proof.Machine
end

