-- ==== Sys2Proof/Machine/Dispatch.lean ====
section
/-! DEFINITION. The meaning of every command, one arm per constructor of `Instr`. -/

namespace Sys2Proof.Machine

/-- What a command does. -/
def exec (i : Instr) (s : State) : Host.Outcome State Fault Refusal :=
  match i with
  | .reserved low => Sys2Proof.Machine.execReserved low s
  | .tblRd idx => Sys2Proof.Machine.execTblRd idx s
  | .crcInit v => Sys2Proof.Machine.execCrcInit v s
  | .crcAcc b => Sys2Proof.Machine.execCrcAcc b s
  | .crcRd => Sys2Proof.Machine.execCrcRd s
  | .setAddr a => Sys2Proof.Machine.execSetAddr a s
  | .setCmd c => Sys2Proof.Machine.execSetCmd c s
  | .setDlen d => Sys2Proof.Machine.execSetDlen d s
  | .setBcnt n => Sys2Proof.Machine.execSetBcnt n s
  | .vBegin => Sys2Proof.Machine.execVBegin s
  | .vPush b => Sys2Proof.Machine.execVPush b s
  | .vEnd => Sys2Proof.Machine.execVEnd s
  | .rdStatus => Sys2Proof.Machine.execRdStatus s
  | .rdExp => Sys2Proof.Machine.execRdExp s
  | .rdAct => Sys2Proof.Machine.execRdAct s
  | .rdEcause => Sys2Proof.Machine.execRdEcause s

end Sys2Proof.Machine
end

