-- ==== Sys2Proof/Machine/Port.lean ====
section
/-! DEFINITION. The command port and the reset input (00_scope.md R5; 60_exceptions.md R170;
70_reset_and_hazards.md R190). -/

namespace Sys2Proof.Machine

/-- One transaction: the word is decoded, then performed by its command's rule, or is illegal with
the cause the decode checks give (R63, R170). -/
def issue (w : CmdWord) (s : State) : Host.Outcome State Fault Refusal :=
  match decode w with
  | .command i => exec i s
  | .illegal c => .next (takeIllegal c s)

/-- What the core does with one input of the host. -/
def accept (e : Input) (s : State) : Host.Outcome State Fault Refusal :=
  match e with
  | .command w => issue w s
  | .reset => .next (applyReset s)

/-- The oldest input is taken, and the core does what it asks, before the next is read (R48).
With no input offered the core retains its state (R184, log entry 2). -/
def takeInput (s : State) : Host.Outcome State Fault Refusal :=
  match s.inputs with
  | [] => .next s
  | e :: rest => accept e { s with inputs := rest }

/-- The state in which the word `w` is the next thing the host does. -/
def offer (w : CmdWord) (s : State) : State := { s with inputs := .command w :: s.inputs }

end Sys2Proof.Machine
end

