-- ==== Sys2Proof/Machine/Step.lean ====
section
/-! DEFINITION. One step of the machine. -/

namespace Sys2Proof.Machine

/-- One step: the core takes the host's next input. -/
def step (s : State) : Host.Outcome State Fault Refusal := takeInput s

/-- The state whose next step runs the instruction of an opcode-table row: the host issues its
word. The core fetches nothing (R21); log entry 3 says how a program comes to run from reset. -/
def State.withFetchWord (s : State) (nbits w : Nat) : State := offer (tableWord nbits w) s

end Sys2Proof.Machine
end

