-- ==== Sys2Proof/Machine/Assembler.lean ====
section
/-! DEFINITION. The assembler: pseudo-instructions (30_encoding.md R67), the words of a line, and
the reading of a line's text (R66). No step of the core uses it. -/

namespace Sys2Proof.Machine

/-! ## From a line to its commands and words -/

/-- A number that fits the u8 form, as the byte it is. -/
def u8 (n : Nat) : Byte := BitVec.ofNat 8 n

/-- A number that fits the u7 form, as the address it is. -/
def u7 (n : Nat) : Addr7 := BitVec.ofNat 7 n

/-- `V_SETUP a, c, d, n` (R67). -/
def expandSetup (a c d n : Nat) : List Instr :=
  [.setAddr (u7 a), .setCmd (u8 c), .setDlen (u8 d), .setBcnt (u8 n)]

/-- `V_FRAME r0, ..., rk` (R67). -/
def expandFrame (rs : List Nat) : List Instr :=
  .vBegin :: rs.map (fun r => .vPush (u8 r)) ++ [.vEnd]

/-- The commands of a well-formed line: one for a command's mnemonic, R67's expansion for a
pseudo-instruction. A line that is not well-formed has none. -/
def expandLine (l : SourceLine) : List Instr :=
  match l.mnemonic, l.operands with
  | .tblRd, [n] => [.tblRd (u8 n)]
  | .crcInit, [n] => [.crcInit (u8 n)]
  | .crcAcc, [n] => [.crcAcc (u8 n)]
  | .crcRd, [] => [.crcRd]
  | .setAddr, [a] => [.setAddr (u7 a)]
  | .setCmd, [n] => [.setCmd (u8 n)]
  | .setDlen, [n] => [.setDlen (u8 n)]
  | .setBcnt, [n] => [.setBcnt (u8 n)]
  | .vBegin, [] => [.vBegin]
  | .vPush, [n] => [.vPush (u8 n)]
  | .vEnd, [] => [.vEnd]
  | .rdStatus, [] => [.rdStatus]
  | .rdExp, [] => [.rdExp]
  | .rdAct, [] => [.rdAct]
  | .rdEcause, [] => [.rdEcause]
  | .crcClr, [] => [.crcInit 0x00]
  | .crcBytes, bs => bs.map fun b => .crcAcc (u8 b)
  | .vSetup, [a, c, d, n] => expandSetup a c d n
  | .vFrame, rs => expandFrame rs
  | .validate, a :: c :: d :: n :: rs => expandSetup a c d n ++ expandFrame rs
  | _, _ => []

/-- The words of a line; `none` where the assembler rejects it (R66). -/
def assemble (l : SourceLine) : Option (List CmdWord) :=
  if l.wellFormed then some ((expandLine l).map encode) else none

/-! ## From text to a line -/

/-- The spelling of a mnemonic (R62, R67). -/
def spelling (m : Mnemonic) : String :=
  match m with
  | .tblRd => "TBL_RD"
  | .crcInit => "CRC_INIT"
  | .crcAcc => "CRC_ACC"
  | .crcRd => "CRC_RD"
  | .setAddr => "SET_ADDR"
  | .setCmd => "SET_CMD"
  | .setDlen => "SET_DLEN"
  | .setBcnt => "SET_BCNT"
  | .vBegin => "V_BEGIN"
  | .vPush => "V_PUSH"
  | .vEnd => "V_END"
  | .rdStatus => "RD_STATUS"
  | .rdExp => "RD_EXP"
  | .rdAct => "RD_ACT"
  | .rdEcause => "RD_ECAUSE"
  | .crcClr => "CRC_CLR"
  | .crcBytes => "CRC_BYTES"
  | .vSetup => "V_SETUP"
  | .vFrame => "V_FRAME"
  | .validate => "VALIDATE"

/-- Every mnemonic. -/
def mnemonics : List Mnemonic :=
  [.tblRd, .crcInit, .crcAcc, .crcRd, .setAddr, .setCmd, .setDlen, .setBcnt, .vBegin, .vPush,
   .vEnd, .rdStatus, .rdExp, .rdAct, .rdEcause, .crcClr, .crcBytes, .vSetup, .vFrame, .validate]

/-- The mnemonic a word of text spells, letter for letter. -/
def readMnemonic (t : List Char) : Option Mnemonic :=
  mnemonics.find? fun m => (spelling m).toList == t

/-- The digits of R66's numbers, each at the index of its value; decimal uses the first ten. -/
def digits : List Char :=
  ['0', '1', '2', '3', '4', '5', '6', '7', '8', '9', 'A', 'B', 'C', 'D', 'E', 'F']

/-- The value of a digit, a letter in either case (DESIGN CHOICE, log entry 11). -/
def digitValue (c : Char) : Option Nat := digits.findIdx? (c.toUpper == ·)

/-- The number that digits of a base continue from `acc`; `none` if one of them is no digit. -/
def readDigits (base acc : Nat) (t : List Char) : Option Nat :=
  match t with
  | [] => some acc
  | c :: rest =>
    match digitValue c with
    | some v => if v < base then readDigits base (base * acc + v) rest else none
    | none => none

/-- A number, "written in hexadecimal as `0x..` or in decimal" (R66). -/
def readNumber (t : List Char) : Option Nat :=
  match t with
  | [] => none
  | ['0', 'x'] => none
  | '0' :: 'x' :: ds => readDigits 16 0 ds
  | ds => readDigits 10 0 ds

/-- The numbers of several words of text; `none` if one of them is no number. -/
def readNumbers (ts : List (List Char)) : Option (List Nat) := ts.mapM readNumber

/-- What separates the words of a line: blanks, tabs and commas (DESIGN CHOICE, log entry 11). -/
def separates (c : Char) : Bool := c == ' ' || c == '\t' || c == ','

/-- The words of a text; `cur` is the word being read, its last letter first. Separators in a row
count as one, and those at either end as none, so an empty operand between two commas is skipped
and not rejected (DESIGN CHOICE, log entry 11). -/
def splitWords (cur : List Char) (t : List Char) : List (List Char) :=
  match t with
  | [] => if cur.isEmpty then [] else [cur.reverse]
  | c :: rest =>
    if separates c then
      if cur.isEmpty then splitWords [] rest else cur.reverse :: splitWords [] rest
    else splitWords (c :: cur) rest

/-- What stands before a comment, which starts with `;` (R66). -/
def beforeComment (t : List Char) : List Char := t.takeWhile fun c => c != ';'

/-- The words of command a line of text assembles to: none for a blank line or a comment alone,
`none` for a line the assembler rejects. -/
def assembleText (t : List Char) : Option (List CmdWord) :=
  match splitWords [] (beforeComment t) with
  | [] => some []
  | m :: ops =>
    match readMnemonic m, readNumbers ops with
    | some mn, some ns => assemble { mnemonic := mn, operands := ns }
    | _, _ => none

end Sys2Proof.Machine
end

