-- ==== Sys2Proof/Safety.lean ====
section
/-! DEFINITION. The terms in which claims about the core are stated: legality of a command, runs
and their observation (R197), which command reads and writes which register (R20), the
invariants, and what a validation leaves (R151). -/

namespace Sys2Proof.Safety

open Sys2Proof.Machine

/-! ## Legality -/

/-- R173, with the reserved opcode's cause 1 (R172): why a decoded command is illegal in a
validator state, if it is. -/
def illegalInState (i : Instr) (v : Vst) : Option Cause :=
  match i, v with
  | .reserved _, _ => some .rsvdOp
  | .crcInit _, .collect | .crcAcc _, .collect | .setAddr _, .collect => some .busy
  | .setCmd _, .collect | .setDlen _, .collect | .setBcnt _, .collect => some .busy
  | .vPush _, .idle | .vEnd, .idle => some .notOpen
  | _, _ => none

/-- R170: why a word is illegal in a state, if it is; the decode checks come first. -/
def illegalCause (w : CmdWord) (s : State) : Option Cause :=
  match decode w with
  | .illegal c => some c
  | .command i => illegalInState i s.vst

/-- The words with `word AND mask = match` decode to their row's command, and a nonzero Z is
illegal with cause 2 (R62, R63): the u8 form. -/
def DecodesU8 (op : BitVec 4) (mk : Byte → Instr) : Prop :=
  (∀ w : CmdWord, w &&& 0xFF00#16 = op ++ 0x000#12 → decode w = .command (mk (w.setWidth 8))) ∧
  ∀ (z : BitVec 4) (imm : Byte), z ≠ 0 → decode ((op ++ z) ++ imm) = .illegal .rsvdField

/-- The same for the none form, one word alone; a nonzero IMM is illegal with cause 3. -/
def DecodesNone (op : BitVec 4) (i : Instr) : Prop :=
  decode (op ++ 0x000#12) = .command i ∧
  (∀ (z : BitVec 4) (imm : Byte), z ≠ 0 → decode ((op ++ z) ++ imm) = .illegal .rsvdField) ∧
  ∀ imm : Byte, imm ≠ 0 → decode ((op ++ 0x0#4) ++ imm) = .illegal .immNonzero

/-! ## Runs -/

/-- The host issues the words in order, and the machine steps once for each. -/
def runWords (ws : List CmdWord) (s : State) : Host.Outcome State Fault Refusal :=
  Host.Core.run core ws.length { s with inputs := ws.map .command }

/-- The RDATA bytes of a sequence of transactions, one per word (R197). -/
def responses (ws : List CmdWord) (s : State) : List Byte :=
  match ws with
  | [] => []
  | w :: rest =>
    match issue w s with
    | .next t => t.rdata :: responses rest t
    | .fault _ => []
    | .refused _ => []

/-- What a run shows (R197): its RDATA bytes, one per word, and the registers at its end. -/
structure Observation where
  rdatas : List Byte
  final : Host.Outcome State Fault Refusal
  deriving Repr

/-- The observation of a run: a reset, then the words (R197). -/
def observe (ws : List CmdWord) : Observation where
  rdatas := responses ws State.reset
  final := runWords ws State.reset

/-- The cause of the first illegal command among the words, if one is illegal. -/
def firstCause (ws : List CmdWord) (s : State) : Option Cause :=
  match ws with
  | [] => none
  | w :: rest =>
    match illegalCause w s, issue w s with
    | some c, _ => some c
    | none, .next t => firstCause rest t
    | none, .fault _ => none
    | none, .refused _ => none

/-- A run without an illegal command is one that ends with ECAUSE = 0 (R197). -/
def noIllegalSinceReset (s : State) : Prop := s.ecause = 0x00

/-! ## Registers and who touches them (R20) -/

/-- The registers of R20's table. -/
inductive Reg where
  | crc | daddr | cmd | dlen | bcnt | vst | pend | rcnt | code | exp | act | ecause | rdata
  deriving DecidableEq, Repr

/-- What a register holds, as a number. -/
def regValue (r : Reg) (s : State) : Nat :=
  match r with
  | .crc => s.crc.toNat
  | .daddr => s.daddr.toNat
  | .cmd => s.cmd.toNat
  | .dlen => s.dlen.toNat
  | .bcnt => s.bcnt.toNat
  | .vst => (vstBit s.vst).toNat
  | .pend => s.pend.toNat
  | .rcnt => s.rcnt.toNat
  | .code => s.code.toNat
  | .exp => s.exp.toNat
  | .act => s.act.toNat
  | .ecause => s.ecause.toNat
  | .rdata => s.rdata.toNat

/-- R20's "written by" column. ECAUSE is written by "any illegal command": a command that is
legal in both states never is one. -/
def writes (i : Instr) (r : Reg) : Bool :=
  match r, i with
  | .crc, .crcInit _ | .crc, .crcAcc _ | .crc, .vBegin | .crc, .vPush _ => true
  | .daddr, .setAddr _ => true
  | .cmd, .setCmd _ => true
  | .dlen, .setDlen _ => true
  | .bcnt, .setBcnt _ => true
  | .vst, .vBegin | .vst, .vEnd => true
  | .pend, .vBegin | .pend, .vPush _ => true
  | .rcnt, .vBegin | .rcnt, .vPush _ => true
  | .code, .vBegin | .code, .vEnd => true
  | .exp, .vBegin | .exp, .vEnd => true
  | .act, .vBegin | .act, .vEnd => true
  | .ecause, .reserved _ | .ecause, .crcInit _ | .ecause, .crcAcc _ | .ecause, .setAddr _ => true
  | .ecause, .setCmd _ | .ecause, .setDlen _ | .ecause, .setBcnt _ => true
  | .ecause, .vPush _ | .ecause, .vEnd => true
  | .rdata, _ => true
  | _, _ => false

/-- R20's "read by" column. VST is read by every command; the result registers and ECAUSE are
read where STATUS or the register itself is the response. No command reads RDATA. -/
def reads (i : Instr) (r : Reg) : Bool :=
  match r, i with
  | .crc, .crcAcc _ | .crc, .crcRd | .crc, .vPush _ | .crc, .vEnd => true
  | .daddr, .vBegin | .cmd, .vBegin | .dlen, .vBegin => true
  | .bcnt, .vBegin | .bcnt, .vEnd => true
  | .vst, _ => true
  | .pend, .vPush _ | .pend, .vEnd => true
  | .rcnt, .vPush _ | .rcnt, .vEnd => true
  | .code, .rdStatus => true
  | .exp, .rdExp => true
  | .act, .rdAct => true
  | .ecause, .rdEcause | .ecause, .rdStatus | .ecause, .vEnd => true
  | _, _ => false

/-- Two states that differ at most in one register. -/
def AgreeExcept (r : Reg) (s t : State) : Prop :=
  (∀ q : Reg, q ≠ r → regValue q s = regValue q t) ∧ s.inputs = t.inputs

/-! ## Invariants -/

/-- CODE holds a value some command writes (R31), and ECAUSE a cause or 0 (R172). -/
def LegalCodes (s : State) : Prop := s.code ≤ 4 ∧ s.ecause ≤ 6

/-- While a validation is open there is no result (R31, R32), and until a second byte is pushed
CRC is the header's (R144, R145). -/
def OpenValidation (s : State) : Prop :=
  s.vst = .collect →
    s.code = codeNone ∧ s.exp = 0x00 ∧ s.act = 0x00 ∧
    (s.rcnt = 0 → s.pend = 0x00) ∧
    (s.rcnt < 2 → s.crc = accumulate pecSeed (headerOf s))

/-- What EXP and ACT hold beside each result code (R32, R33, R146). -/
def ResultRegisters (s : State) : Prop :=
  (s.code = codeNone ∨ s.code = codeInvalidLength ∨ s.code = codeEmptyResponse →
    s.exp = 0x00 ∧ s.act = 0x00) ∧
  (s.code = codeValid → s.exp = s.act) ∧
  (s.code = codeMismatch → s.exp ≠ s.act)

/-! ## What a validation leaves (R151) -/

/-- The words R151 lets stand among those of a validation, where the validator's state is `v`: the
six reads, and any word illegal there (R170). -/
def interleaved (v : Vst) (w : CmdWord) : Bool :=
  match decode w with
  | .illegal _ => true
  | .command i =>
    match i with
    | .tblRd _ | .crcRd | .rdStatus | .rdExp | .rdAct | .rdEcause => true
    | .reserved _ | .crcInit _ | .crcAcc _ | .setAddr _ | .setCmd _ | .setDlen _ | .setBcnt _
    | .vBegin | .vPush _ | .vEnd => (illegalInState i v).isSome

/-- The CODE, EXP and ACT of R151's table for a verdict on the response `r`. -/
def resultOf (v : Verdict) (r : List Byte) : BitVec 3 × Byte × Byte :=
  match v with
  | .valid => (codeValid, r.getLastD 0x00, r.getLastD 0x00)
  | .mismatch e x => (codeMismatch, e, x)
  | .invalidLength => (codeInvalidLength, 0x00, 0x00)
  | .emptyResponse => (codeEmptyResponse, 0x00, 0x00)

/-- `SET_ADDR a`, `SET_CMD c`, `SET_DLEN d`, `SET_BCNT n` (R67, R151). -/
def setupWords (a : Addr7) (c d n : Byte) : List CmdWord :=
  [encode (.setAddr a), encode (.setCmd c), encode (.setDlen d), encode (.setBcnt n)]

/-- `V_BEGIN`, a `V_PUSH` for each response byte, `V_END` (R67, R151). -/
def frameWords (r : List Byte) : List CmdWord :=
  encode .vBegin :: r.map (fun b => encode (.vPush b)) ++ [encode .vEnd]

end Sys2Proof.Safety
end

