-- ==== Sys2Proof/Certificates/Slice0/Obligations.lean ====
section
/-! DEFINITION. What is to be proved of the core, each statement from the rules of spec/ its docstring
names. `genTable`, `accumulate`, `buildFrame` and `validate` are the spec's functions (R80, R100, R120,
R121). The core has no data memory (R40), so no statement speaks of memory: a command's frame
is the equation of its next state, in which every field not named is as before. -/

open Sys2Proof Sys2Proof.Machine Sys2Proof.Safety

/-! ## Encoding -/

/-- R60, R62: encoding and decoding are inverse, for every operand of every row. -/
def Obligations.DecodingInvertsEncoding : Prop :=
  (∀ i : Instr, decode (encode i) = .command i) ∧
  ∀ (w : CmdWord) (i : Instr), decode w = .command i → encode i = w

/-- R63: the decode checks in their order, then the row of R62 with its operand. Cause 1 is raised
by the reserved row's meaning (log entry 5). -/
def Obligations.DecodeChecksRunInOrder : Prop :=
  ∀ (op z : BitVec 4) (imm : Byte) (s : State),
    issue ((op ++ z) ++ imm) s =
      if op = 0x0 then .next (takeIllegal .rsvdOp s)
      else if z ≠ 0x0 then .next (takeIllegal .rsvdField s)
      else if op ∈ [0x4#4, 0x9#4, 0xB#4, 0xC#4, 0xD#4, 0xE#4, 0xF#4] ∧ imm ≠ 0x00 then
        .next (takeIllegal .immNonzero s)
      else if op = 0x5 ∧ imm.getLsbD 7 = true then .next (takeIllegal .addrRange s)
      else
        match [Instr.tblRd imm, .crcInit imm, .crcAcc imm, .crcRd, .setAddr (imm.extractLsb' 0 7),
            .setCmd imm, .setDlen imm, .setBcnt imm, .vBegin, .vPush imm, .vEnd, .rdStatus, .rdExp,
            .rdAct, .rdEcause][op.toNat - 1]? with
        | some i => exec i s
        | none => .next s

/-- R64: the illegal words are exactly (a) to (d); each records its cause, answers 0x00 and
changes nothing else; every other word is performed by the command it decodes to. The words of (a)
decode to the reserved row's constructor (log entry 5). -/
def Obligations.IllegalWordsAreExactlyTheListed : Prop :=
  ∀ (w : CmdWord) (s : State),
    (((∃ low, decode w = .command (.reserved low)) ∨ ∃ c, decode w = .illegal c) ↔
      (w.toNat < 4096 ∨ w.extractLsb' 8 4 ≠ 0 ∨
        (w &&& 0xFF00#16 ∈ [0x4000#16, 0x9000#16, 0xB000#16, 0xC000#16, 0xD000#16, 0xE000#16,
          0xF000#16] ∧ w &&& 0x00FF#16 ≠ 0) ∨
        (0x5080 ≤ w.toNat ∧ w.toNat ≤ 0x50FF))) ∧
    (((∃ low, decode w = .command (.reserved low)) ∨ ∃ c, decode w = .illegal c) →
      ∃ c : Cause, issue w s =
        .next { s with ecause := if s.ecause = 0 then causeCode c else s.ecause, rdata := 0x00 }) ∧
    ((¬ ∃ c, decode w = .illegal c) → ∃ i t, decode w = .command i ∧ issue w s = exec i s ∧
      exec i s = .next t)

/-- R68: the encoding examples, and one word of each family written out from R62. R63 and R68 give
0x0000 as illegal with cause 1; that it decodes to the reserved row's constructor, whose meaning is
that cause, is the model's (DEDUCED, log entry 5). -/
def Obligations.SampleWordsDecode : Prop :=
  decode 0x507F = .command (.setAddr 0x7F) ∧
  decode 0x5080 = .illegal .addrRange ∧
  decode 0x4001 = .illegal .immNonzero ∧
  decode 0x1100 = .illegal .rsvdField ∧
  decode 0x0000 = .command (.reserved 0x000) ∧
  decode 0x109B = .command (.tblRd 0x9B) ∧
  decode 0xA054 = .command (.vPush 0x54) ∧
  decode 0x3031 = .command (.crcAcc 0x31) ∧
  decode 0xB000 = .command .vEnd ∧
  decode 0xF000 = .command .rdEcause ∧
  assemble { mnemonic := .setAddr, operands := [0x7F] } = some [0x507F] ∧
  assemble { mnemonic := .setAddr, operands := [0x80] } = none

/-- R66: a command's line assembles exactly when it has the operands of its form, in number and in
size, and to its command's word alone; nothing is truncated, dropped or filled in. A comment changes
nothing. How text is split is the model's (log entry 11). -/
def Obligations.AssemblerRejectsWhatDoesNotFit : Prop :=
  (∀ (ops : List Nat) (m : Mnemonic) (mk : Byte → Instr),
    (m, mk) ∈ [(Mnemonic.tblRd, Instr.tblRd), (.crcInit, .crcInit), (.crcAcc, .crcAcc),
      (.setCmd, .setCmd), (.setDlen, .setDlen), (.setBcnt, .setBcnt), (.vPush, .vPush)] →
    assemble { mnemonic := m, operands := ops } =
      match ops with
      | [n] => if n ≤ 255 then some [encode (mk (BitVec.ofNat 8 n))] else none
      | _ => none) ∧
  (∀ ops : List Nat, assemble { mnemonic := .setAddr, operands := ops } =
      match ops with
      | [a] => if a ≤ 127 then some [encode (.setAddr (BitVec.ofNat 7 a))] else none
      | _ => none) ∧
  (∀ (m : Mnemonic) (i : Instr) (ops : List Nat),
    (m, i) ∈ [(Mnemonic.crcRd, Instr.crcRd), (.vBegin, .vBegin), (.vEnd, .vEnd),
      (.rdStatus, .rdStatus), (.rdExp, .rdExp), (.rdAct, .rdAct), (.rdEcause, .rdEcause)] →
    assemble { mnemonic := m, operands := ops } = if ops = [] then some [encode i] else none) ∧
  (∀ line comment : List Char, assembleText (line ++ ';' :: comment) = assembleText line) ∧
  assembleText "SET_ADDR 0x40".toList = some [0x5040] ∧
  assembleText "CRC_ACC 0x31".toList = some [0x3031] ∧
  assembleText "CRC_ACC 49 ; decimal".toList = some [0x3031] ∧
  assembleText "V_END".toList = some [0xB000]

/-- R67: each pseudo-instruction is exactly its expansion. -/
def Obligations.PseudoInstructionsExpandExactly : Prop :=
  assemble { mnemonic := .crcClr, operands := [] } = some [encode (.crcInit 0x00)] ∧
  (∀ (b : Byte) (bs : List Byte),
    assemble { mnemonic := .crcBytes, operands := (b :: bs).map BitVec.toNat } =
      some ((b :: bs).map fun x => encode (.crcAcc x))) ∧
  (∀ (a : Addr7) (c d n : Byte),
    assemble { mnemonic := .vSetup, operands := [a.toNat, c.toNat, d.toNat, n.toNat] } =
      some (setupWords a c d n)) ∧
  (∀ (r : Byte) (rs : List Byte),
    assemble { mnemonic := .vFrame, operands := (r :: rs).map BitVec.toNat } =
      some (frameWords (r :: rs))) ∧
  ∀ (a : Addr7) (c d n r : Byte) (rs : List Byte),
    assemble { mnemonic := .validate,
               operands := [a.toNat, c.toNat, d.toNat, n.toNat] ++ (r :: rs).map BitVec.toNat } =
      some (setupWords a c d n ++ frameWords (r :: rs))

/-- R66 with R67: a pseudo-instruction's line assembles exactly when it has its operands, in number
and in size. That `b0, ..., bk` means at least one is the model's (DEDUCED, log entry 11). -/
def Obligations.PseudoOperandsMustFit : Prop :=
  (∀ ops : List Nat, assemble { mnemonic := .crcClr, operands := ops } =
      if ops = [] then some [encode (.crcInit 0x00)] else none) ∧
  (∀ bs : List Nat, assemble { mnemonic := .crcBytes, operands := bs } =
      if bs ≠ [] ∧ ∀ b ∈ bs, b ≤ 255 then
        some (bs.map fun b => encode (.crcAcc (BitVec.ofNat 8 b)))
      else none) ∧
  (∀ ops : List Nat, assemble { mnemonic := .vSetup, operands := ops } =
      match ops with
      | [a, c, d, n] =>
        if a ≤ 127 ∧ c ≤ 255 ∧ d ≤ 255 ∧ n ≤ 255 then
          some (setupWords (BitVec.ofNat 7 a) (BitVec.ofNat 8 c) (BitVec.ofNat 8 d)
            (BitVec.ofNat 8 n))
        else none
      | _ => none) ∧
  (∀ rs : List Nat, assemble { mnemonic := .vFrame, operands := rs } =
      if rs ≠ [] ∧ ∀ r ∈ rs, r ≤ 255 then some (frameWords (rs.map (BitVec.ofNat 8))) else none) ∧
  ∀ ops : List Nat, assemble { mnemonic := .validate, operands := ops } =
      match ops with
      | a :: c :: d :: n :: rs =>
        if a ≤ 127 ∧ c ≤ 255 ∧ d ≤ 255 ∧ n ≤ 255 ∧ rs ≠ [] ∧ ∀ r ∈ rs, r ≤ 255 then
          some (setupWords (BitVec.ofNat 7 a) (BitVec.ofNat 8 c) (BitVec.ofNat 8 d)
            (BitVec.ofNat 8 n) ++ frameWords (rs.map (BitVec.ofNat 8)))
        else none
      | _ => none

/-! ## The pure functions -/

/-- R83: the derived properties of the table. -/
def Obligations.TableIsLinearPermutation : Prop :=
  (∀ x : Byte, tableRead x = x ↔ x = 0x00 ∨ x = 0xFD) ∧
  (∀ a b : Byte, tableRead (a ^^^ b) = tableRead a ^^^ tableRead b) ∧
  Function.Bijective tableRead ∧
  (∀ x : Byte, tableRead x = 0x00 ↔ x = 0x00) ∧
  tableRead 0x01 = 0x07 ∧ tableRead 0x80 = 0x89 ∧ tableRead 0xFF = 0xF3

/-- R102 and R103: the laws of accumulation. -/
def Obligations.AccumulationLaws : Prop :=
  (∀ c : Byte, accumulate c [] = c) ∧
  (∀ (c : Byte) (xs ys : List Byte), accumulate c (xs ++ ys) = accumulate (accumulate c xs) ys) ∧
  (∀ (c : Byte) (xs : List Byte), accumulate c (xs ++ [accumulate c xs]) = 0x00) ∧
  (∀ n : Nat, accumulate 0x00 (List.replicate n 0x00) = 0x00) ∧
  (∀ (c : Byte) (xs ys : List Byte), xs.length = ys.length →
    accumulate c xs ^^^ accumulate c ys = accumulate 0x00 (List.zipWith (· ^^^ ·) xs ys)) ∧
  ∀ (c : Byte) (bs : List Byte),
    accumulate c bs = bs.foldl (fun crc b => (genRound^[8]) (crc ^^^ b)) c

/-- R120 and R122: the frame's bytes in their order, with both address bytes shifted. -/
def Obligations.FrameBytesInOrder : Prop :=
  (∀ (a : Addr7) (c d n : Byte) (r : List Byte),
    buildFrame a c d n r =
      if n.toNat = 0 ∨ 8 < n.toNat then none
      else some ([BitVec.ofNat 8 (2 * a.toNat), c, d, n, BitVec.ofNat 8 (2 * a.toNat + 1)] ++
        r.dropLast)) ∧
  (∀ a : Addr7, (writeAddrByte a).getLsbD 0 = false ∧ (readAddrByte a).getLsbD 0 = true ∧
    (writeAddrByte a).toNat / 2 = a.toNat ∧ (readAddrByte a).toNat / 2 = a.toNat) ∧
  writeAddrByte 0x40 = 0x80 ∧ readAddrByte 0x40 = 0x81 ∧
  writeAddrByte 0x7F = 0xFE ∧ readAddrByte 0x7F = 0xFF ∧
  writeAddrByte 0x00 = 0x00 ∧ readAddrByte 0x00 = 0x01

/-- R124 to R127: when each result of `Validate` holds. No response length of at least two is
refused. -/
def Obligations.ValidateFailureConditions : Prop :=
  ∀ (a : Addr7) (c d n : Byte) (r : List Byte),
    (validate a c d n r = .invalidLength ↔ n.toNat = 0 ∨ 8 < n.toNat) ∧
    (n.toNat = 0 ∨ 8 < n.toNat → buildFrame a c d n r = none) ∧
    (validate a c d n r = .emptyResponse ↔ (1 ≤ n.toNat ∧ n.toNat ≤ 8) ∧ r.length < 2) ∧
    ((1 ≤ n.toNat ∧ n.toNat ≤ 8) → ∀ x y ys, r = x :: y :: ys →
      ∃ frame, buildFrame a c d n r = some frame ∧
        (validate a c d n r = .valid ∨
          validate a c d n r = .mismatch (accumulate 0x00 frame) (r.getLastD 0x00)) ∧
        (validate a c d n r = .valid ↔ accumulate 0x00 frame = r.getLastD 0x00))

/-- R128: a valid frame with one byte changed, in the response, in the header or in the PEC. -/
def Obligations.OneByteChangeIsAMismatch : Prop :=
  ∀ (a : Addr7) (c d n : Byte) (r : List Byte), validate a c d n r = .valid →
    (∀ (k : Nat) (b : Byte), k + 1 < r.length → r[k]? ≠ some b →
      ∃ frame, buildFrame a c d n (r.set k b) = some frame ∧
        validate a c d n (r.set k b) = .mismatch (accumulate 0x00 frame) (r.getLastD 0x00) ∧
        accumulate 0x00 frame ≠ r.getLastD 0x00) ∧
    (∀ (a' : Addr7) (c' d' n' : Byte),
      (a' ≠ a ∧ c' = c ∧ d' = d ∧ n' = n) ∨ (a' = a ∧ c' ≠ c ∧ d' = d ∧ n' = n) ∨
      (a' = a ∧ c' = c ∧ d' ≠ d ∧ n' = n) ∨
      (a' = a ∧ c' = c ∧ d' = d ∧ n' ≠ n ∧ 1 ≤ n'.toNat ∧ n'.toNat ≤ 8) →
      ∃ frame, buildFrame a' c' d' n' r = some frame ∧
        validate a' c' d' n' r = .mismatch (accumulate 0x00 frame) (r.getLastD 0x00) ∧
        accumulate 0x00 frame ≠ r.getLastD 0x00) ∧
    ∀ b : Byte, b ≠ r.getLastD 0x00 →
      validate a c d n (r.dropLast ++ [b]) = .mismatch (r.getLastD 0x00) b

/-! ## The commands: encoding, effect, illegality and example of each -/

/-- R82, TBL_RD. -/
def Obligations.TblRdAnswersTableEntry : Prop :=
  DecodesU8 0x1 .tblRd ∧
  (∀ (idx : Byte) (s : State), exec (.tblRd idx) s = .next { s with rdata := genTable idx }) ∧
  genTable 0x00 = 0x00 ∧ genTable 0xFF = 0xF3 ∧
  ∀ s : State, issue 0x1001 s = .next { s with rdata := 0x07 }

/-- R104, CRC_INIT. -/
def Obligations.CrcInitSeedsAccumulator : Prop :=
  DecodesU8 0x2 .crcInit ∧
  (∀ (v : Byte) (s : State), s.vst = .idle →
    exec (.crcInit v) s = .next { s with crc := v, rdata := v }) ∧
  (∀ (v : Byte) (s : State), s.vst = .collect →
    exec (.crcInit v) s = .next (takeIllegal .busy s)) ∧
  ∀ s : State, s.vst = .idle → issue 0x2000 s = .next { s with crc := 0x00, rdata := 0x00 }

/-- R105, CRC_ACC; its run is `Obligations.AccumulatorRunComputesAccumulate`. -/
def Obligations.CrcAccFoldsOneByte : Prop :=
  DecodesU8 0x3 .crcAcc ∧
  (∀ (b : Byte) (s : State), s.vst = .idle →
    exec (.crcAcc b) s =
      .next { s with crc := genTable (s.crc ^^^ b), rdata := genTable (s.crc ^^^ b) }) ∧
  (∀ (b : Byte) (s : State), s.vst = .collect →
    exec (.crcAcc b) s = .next (takeIllegal .busy s)) ∧
  (∀ (b : Byte) (s t : State), s.vst = .idle → exec (.crcAcc b) s = .next t →
    (b = s.crc → t.crc = 0x00) ∧ (s.crc = 0x00 ∧ b = 0x00 → t.crc = 0x00) ∧
    (s.crc = 0xFF ∧ b = 0x00 → t.crc = 0xF3) ∧ (s.crc = 0x00 ∧ b = 0xFF → t.crc = 0xF3)) ∧
  ∀ s : State, s.vst = .idle → s.crc = 0x00 →
    issue 0x3031 s = .next { s with crc := 0x97, rdata := 0x97 }

/-- The sentence of R105 that the spec derives from R100, R104 and R105: a CRC_INIT c followed by
CRC_ACC commands leaves `Accumulate(c, [b0, ..., bk])`; CRC_RD then answers it. -/
def Obligations.AccumulatorRunComputesAccumulate : Prop :=
  ∀ (c : Byte) (bs : List Byte) (s : State), s.vst = .idle →
    ∃ t, runWords (encode (.crcInit c) :: bs.map fun b => encode (.crcAcc b)) s = .next t ∧
      t.crc = accumulate c bs ∧ t.vst = .idle ∧
      exec .crcRd t = .next { t with rdata := accumulate c bs }

/-- R106, CRC_RD: its encoding and effect; its corner cases are
`Obligations.PushesStreamTheResponse`'s. -/
def Obligations.CrcRdAnswersAccumulator : Prop :=
  DecodesNone 0x4 .crcRd ∧
  ∀ s : State, exec .crcRd s = .next { s with rdata := s.crc }

/-- R140, SET_ADDR. -/
def Obligations.SetAddrStoresAddress : Prop :=
  (∀ w : CmdWord, w &&& 0xFF80 = 0x5000 → decode w = .command (.setAddr (w.setWidth 7))) ∧
  (∀ (z : BitVec 4) (imm : Byte), z ≠ 0 → decode ((0x5#4 ++ z) ++ imm) = .illegal .rsvdField) ∧
  (∀ imm : Byte, imm.getLsbD 7 = true → decode ((0x5#4 ++ 0x0#4) ++ imm) = .illegal .addrRange) ∧
  (∀ (a : Addr7) (s : State), s.vst = .idle →
    exec (.setAddr a) s = .next { s with daddr := a, rdata := a.setWidth 8 }) ∧
  (∀ (a : Addr7) (s : State), s.vst = .collect →
    exec (.setAddr a) s = .next (takeIllegal .busy s)) ∧
  ∀ s : State, s.vst = .idle → issue 0x5040 s = .next { s with daddr := 0x40, rdata := 0x40 }

/-- R141, SET_CMD. -/
def Obligations.SetCmdStoresCommandCode : Prop :=
  DecodesU8 0x6 .setCmd ∧
  (∀ (c : Byte) (s : State), s.vst = .idle →
    exec (.setCmd c) s = .next { s with cmd := c, rdata := c }) ∧
  (∀ (c : Byte) (s : State), s.vst = .collect →
    exec (.setCmd c) s = .next (takeIllegal .busy s)) ∧
  ∀ s : State, s.vst = .idle → issue 0x609B s = .next { s with cmd := 0x9B, rdata := 0x9B }

/-- R142, SET_DLEN, with DLEN's reset value. -/
def Obligations.SetDlenStoresDeclaredLength : Prop :=
  DecodesU8 0x7 .setDlen ∧
  (∀ (d : Byte) (s : State), s.vst = .idle →
    exec (.setDlen d) s = .next { s with dlen := d, rdata := d }) ∧
  (∀ (d : Byte) (s : State), s.vst = .collect →
    exec (.setDlen d) s = .next (takeIllegal .busy s)) ∧
  State.reset.dlen = 0x01 ∧
  ∀ s : State, s.vst = .idle → issue 0x7001 s = .next { s with dlen := 0x01, rdata := 0x01 }

/-- R143, SET_BCNT: an out-of-range count is stored, and the next V_END reports it. -/
def Obligations.SetBcntStoresAnyByteCount : Prop :=
  DecodesU8 0x8 .setBcnt ∧
  (∀ (n : Byte) (s : State), s.vst = .idle →
    exec (.setBcnt n) s = .next { s with bcnt := n, rdata := n }) ∧
  (∀ (n : Byte) (s : State), s.vst = .collect →
    exec (.setBcnt n) s = .next (takeIllegal .busy s)) ∧
  (∀ s : State, s.vst = .collect → s.bcnt.toNat = 0 ∨ 9 ≤ s.bcnt.toNat →
    ∃ t, exec .vEnd s = .next t ∧ t.code = 3) ∧
  ∀ s : State, s.vst = .idle → issue 0x8008 s = .next { s with bcnt := 0x08, rdata := 0x08 }

/-- R144, V_BEGIN, legal in both states. -/
def Obligations.VBeginOpensValidation : Prop :=
  DecodesNone 0x9 .vBegin ∧
  (∀ s : State, exec .vBegin s =
    .next { s with
      crc := accumulate 0x00 [BitVec.ofNat 8 (2 * s.daddr.toNat), s.cmd, s.dlen, s.bcnt,
        BitVec.ofNat 8 (2 * s.daddr.toNat + 1)]
      vst := .collect, rcnt := 0x00, pend := 0x00, code := 0, exp := 0x00, act := 0x00
      rdata := accumulate 0x00 [BitVec.ofNat 8 (2 * s.daddr.toNat), s.cmd, s.dlen, s.bcnt,
        BitVec.ofNat 8 (2 * s.daddr.toNat + 1)] }) ∧
  (∀ s t : State, s.bcnt.toNat = 0 ∨ 8 < s.bcnt.toNat → exec .vBegin s = .next t →
    ∃ u, exec .vEnd t = .next u ∧ u.code = 3) ∧
  ∀ s : State, s.daddr = 0x40 → s.cmd = 0x9B → s.dlen = 0x01 → s.bcnt = 0x08 →
    ∃ t, issue 0x9000 s = .next t ∧ t.crc = 0x06 ∧ t.rdata = 0x06

/-- R145, V_PUSH, with its corner cases. -/
def Obligations.VPushHoldsBackOneByte : Prop :=
  DecodesU8 0xA .vPush ∧
  (∀ (b : Byte) (s : State), s.vst = .collect → s.rcnt.toNat = 0 →
    exec (.vPush b) s = .next { s with pend := b, rcnt := 0x01, rdata := 0x01 }) ∧
  (∀ (b : Byte) (s : State), s.vst = .collect → 1 ≤ s.rcnt.toNat → s.rcnt.toNat < 255 →
    exec (.vPush b) s = .next { s with
      crc := genTable (s.crc ^^^ s.pend), pend := b, rcnt := s.rcnt + 1, rdata := s.rcnt + 1 }) ∧
  (∀ (b : Byte) (s : State), s.vst = .collect → s.rcnt.toNat = 255 →
    exec (.vPush b) s = .next { s with
      crc := genTable (s.crc ^^^ s.pend), pend := b, rcnt := 0xFF, rdata := 0xFF }) ∧
  (∀ (b : Byte) (s : State), s.vst = .idle →
    exec (.vPush b) s = .next (takeIllegal .notOpen s)) ∧
  ∀ s : State, s.vst = .collect → s.rcnt = 0x00 → s.crc = 0x06 →
    issue 0xA001 s = .next { s with pend := 0x01, rcnt := 0x01, rdata := 0x01 } ∧
    runWords [0xA001, 0xA002] s =
      .next { s with crc := 0x15, pend := 0x02, rcnt := 0x02, rdata := 0x02, inputs := [] }

/-- R146, V_END: its checks in their order, and what each outcome writes. -/
def Obligations.VEndReportsResult : Prop :=
  DecodesNone 0xB .vEnd ∧
  (∀ s : State, s.vst = .collect → s.bcnt.toNat = 0 ∨ 8 < s.bcnt.toNat →
    exec .vEnd s = .next { s with
      code := 3, exp := 0x00, act := 0x00, vst := .idle
      rdata := if s.ecause = 0x00 then 0x03 else 0x83 }) ∧
  (∀ s : State, s.vst = .collect → 1 ≤ s.bcnt.toNat → s.bcnt.toNat ≤ 8 → s.rcnt.toNat < 2 →
    exec .vEnd s = .next { s with
      code := 4, exp := 0x00, act := 0x00, vst := .idle
      rdata := if s.ecause = 0x00 then 0x04 else 0x84 }) ∧
  (∀ s : State, s.vst = .collect → 1 ≤ s.bcnt.toNat → s.bcnt.toNat ≤ 8 → 2 ≤ s.rcnt.toNat →
    s.crc = s.pend →
    exec .vEnd s = .next { s with
      code := 1, exp := s.crc, act := s.pend, vst := .idle
      rdata := if s.ecause = 0x00 then 0x01 else 0x81 }) ∧
  (∀ s : State, s.vst = .collect → 1 ≤ s.bcnt.toNat → s.bcnt.toNat ≤ 8 → 2 ≤ s.rcnt.toNat →
    s.crc ≠ s.pend →
    exec .vEnd s = .next { s with
      code := 2, exp := s.crc, act := s.pend, vst := .idle
      rdata := if s.ecause = 0x00 then 0x02 else 0x82 }) ∧
  (∀ s : State, s.vst = .idle → exec .vEnd s = .next (takeIllegal .notOpen s)) ∧
  (∀ s : State, OpenValidation s → s.vst = .collect → s.rcnt.toNat = 0 →
    ∃ t, exec .vEnd s = .next t ∧ t.crc = accumulate 0x00 (headerOf s)) ∧
  ∀ s : State, s.daddr = 0x40 → s.cmd = 0x9B → s.dlen = 0x01 → s.bcnt = 0x08 → s.ecause = 0x00 →
    ∃ t, runWords (frameWords [0x01, 0x02, 0x03, 0x04, 0x05, 0x06, 0x07, 0x08, 0x54]) s = .next t ∧
      t.code = 1 ∧ t.exp = 0x54 ∧ t.act = 0x54 ∧ t.rdata = 0x01

/-- R147, RD_STATUS, with its corner cases. During COLLECT CODE is NONE, by
`Obligations.StepKeepsOpenValidation`. -/
def Obligations.RdStatusAnswersStatus : Prop :=
  DecodesNone 0xC .rdStatus ∧
  (∀ s : State, exec .rdStatus s = .next { s with rdata := statusByte s }) ∧
  exec .rdStatus State.reset = .next State.reset ∧
  (∀ s : State, OpenValidation s → s.vst = .collect →
    exec .rdStatus s = .next { s with rdata := if s.ecause = 0x00 then 0x40 else 0xC0 }) ∧
  ∀ s : State, s.daddr = 0x40 → s.cmd = 0x9B → s.dlen = 0x01 → s.bcnt = 0x08 → s.ecause = 0x00 →
    ∃ t, runWords (frameWords [0x01, 0x02, 0x03, 0x04, 0x05, 0x06, 0x07, 0x08, 0x54] ++ [0xC000])
      s = .next t ∧ t.rdata = 0x01

/-- R148, RD_EXP: 0x00 unless the last result was VALID or MISMATCH. -/
def Obligations.RdExpAnswersExpected : Prop :=
  DecodesNone 0xD .rdExp ∧
  (∀ s : State, exec .rdExp s = .next { s with rdata := s.exp }) ∧
  (∀ s : State, ResultRegisters s → LegalCodes s → s.code ≠ 1 → s.code ≠ 2 →
    exec .rdExp s = .next { s with rdata := 0x00 }) ∧
  ∀ s : State, s.daddr = 0x40 → s.cmd = 0x9B → s.dlen = 0x01 → s.bcnt = 0x08 → s.ecause = 0x00 →
    ∃ t, runWords (frameWords [0x00, 0x02, 0x03, 0x04, 0x05, 0x06, 0x07, 0x08, 0x54] ++ [0xD000])
      s = .next t ∧ t.code = 2 ∧ t.rdata = 0x47

/-- R149, RD_ACT. -/
def Obligations.RdActAnswersActual : Prop :=
  DecodesNone 0xE .rdAct ∧
  (∀ s : State, exec .rdAct s = .next { s with rdata := s.act }) ∧
  (∀ s : State, ResultRegisters s → LegalCodes s → s.code ≠ 1 → s.code ≠ 2 →
    exec .rdAct s = .next { s with rdata := 0x00 }) ∧
  ∀ s : State, s.daddr = 0x40 → s.cmd = 0x9B → s.dlen = 0x01 → s.bcnt = 0x08 → s.ecause = 0x00 →
    ∃ t, runWords (frameWords [0x00, 0x02, 0x03, 0x04, 0x05, 0x06, 0x07, 0x08, 0x54] ++ [0xE000])
      s = .next t ∧ t.code = 2 ∧ t.rdata = 0x54

/-- R150, RD_ECAUSE: it clears nothing, and answers 0x00 when no illegal command has occurred since
reset; 0xF001 is itself illegal. -/
def Obligations.RdEcauseAnswersFirstCause : Prop :=
  DecodesNone 0xF .rdEcause ∧
  (∀ s : State, exec .rdEcause s = .next { s with rdata := s.ecause }) ∧
  (∀ (ws : List CmdWord) (t : State), firstCause ws State.reset = none →
    runWords ws State.reset = .next t → exec .rdEcause t = .next { t with rdata := 0x00 }) ∧
  (∀ s : State, s.ecause = 0x00 →
    issue 0xF001 s = .next { s with ecause := 0x03, rdata := 0x00 }) ∧
  ∀ s : State, s.ecause = 0x00 → s.vst = .idle →
    runWords [0xA033, 0xF000] s = .next { s with ecause := 0x06, rdata := 0x06, inputs := [] }

/-- R64(a), R172: the reserved opcode is illegal with cause 1 in both states, whatever its other
bits. -/
def Obligations.ReservedOpcodeRecordsCauseOne : Prop :=
  (∀ w : CmdWord, w &&& 0xF000 = 0x0000 → decode w = .command (.reserved (w.setWidth 12))) ∧
  ∀ (low : BitVec 12) (s : State), exec (.reserved low) s =
    .next { s with ecause := if s.ecause = 0x00 then 0x01 else s.ecause, rdata := 0x00 }

/-! ## Illegal commands -/

/-- R171: an illegal command's exact effect; the next command is accepted, and ERR reads 1 after
every later command. -/
def Obligations.IllegalCommandHasExactlyOneEffect : Prop :=
  ∀ (w : CmdWord) (s : State) (c : Cause), illegalCause w s = some c →
    ∃ t, t = { s with ecause := if s.ecause = 0x00 then causeCode c else s.ecause, rdata := 0x00 } ∧
      issue w s = .next t ∧
      (statusByte t).getLsbD 7 = true ∧
      ∀ ws : List CmdWord, ∃ u, runWords ws t = .next u ∧ (statusByte u).getLsbD 7 = true

/-- R170, R172, R173: which cause a word has in a state, with the numbers ECAUSE records. -/
def Obligations.CausesOfIllegality : Prop :=
  (∀ (w : CmdWord) (s : State), illegalCause w s =
    if w.extractLsb' 12 4 = 0x0 then some .rsvdOp
    else if w.extractLsb' 8 4 ≠ 0x0 then some .rsvdField
    else if w.extractLsb' 12 4 ∈ [0x4#4, 0x9#4, 0xB#4, 0xC#4, 0xD#4, 0xE#4, 0xF#4] ∧
      w.extractLsb' 0 8 ≠ 0x00#8 then some .immNonzero
    else if w.extractLsb' 12 4 = 0x5 ∧ w.getLsbD 7 = true then some .addrRange
    else if s.vst = .collect ∧ w.extractLsb' 12 4 ∈ [0x2#4, 0x3#4, 0x5#4, 0x6#4, 0x7#4, 0x8#4] then
      some .busy
    else if s.vst = .idle ∧ w.extractLsb' 12 4 ∈ [0xA#4, 0xB#4] then some .notOpen
    else none) ∧
  (∀ (w : CmdWord) (s : State), s.ecause = 0x00 → ∃ t, issue w s = .next t ∧
    t.ecause = match illegalCause w s with
      | some c => causeCode c
      | none => 0x00) ∧
  (∀ (w : CmdWord) (s : State), illegalCause w s = none →
    ∃ i, decode w = .command i ∧ issue w s = exec i s) ∧
  [Cause.rsvdOp, .rsvdField, .immNonzero, .addrRange, .busy, .notOpen].map causeCode =
    [1, 2, 3, 4, 5, 6]

/-- R175: the precedence examples. -/
def Obligations.FirstFailingCheckGivesCause : Prop :=
  (∀ s : State, s.ecause = 0x00 →
    issue 0x0100 s = .next { s with ecause := 0x01, rdata := 0x00 }) ∧
  ∀ s : State, s.vst = .idle → s.ecause = 0x00 →
    issue 0xA100 s = .next { s with ecause := 0x02, rdata := 0x00 }

/-- R34: only an illegal command writes ECAUSE, only while it is 0; of the host's inputs only reset
clears it; ERR is ECAUSE ≠ 0. -/
def Obligations.EcauseIsStickyUntilReset : Prop :=
  (∀ (w : CmdWord) (s t : State), issue w s = .next t →
    t.ecause = match illegalCause w s with
      | some c => if s.ecause = 0x00 then causeCode c else s.ecause
      | none => s.ecause) ∧
  (∀ (e : Input) (s t : State), accept e s = .next t → s.ecause ≠ 0x00 →
    t.ecause = s.ecause ∨ (t.ecause = 0x00 ∧ e = .reset)) ∧
  (∀ s t : State, accept .reset s = .next t → t.ecause = 0x00) ∧
  ∀ s : State, (statusByte s).getLsbD 7 = true ↔ s.ecause ≠ 0x00

/-- R153: the validator's state machine and the legality of each command in each state. The reserved
row is a constructor of the model (log entry 5). -/
def Obligations.ValidatorStateMachine : Prop :=
  (∀ (i : Instr) (s t : State), exec i s = .next t → t.vst =
    match i with
    | .vBegin => Vst.collect
    | .vEnd => Vst.idle
    | _ => s.vst) ∧
  (∀ (w : CmdWord) (c : Cause) (s t : State), decode w = .illegal c → issue w s = .next t →
    t.vst = s.vst) ∧
  ∀ (i : Instr) (s t : State), s.ecause = 0x00 → exec i s = .next t → t.ecause =
    match i, s.vst with
    | .reserved _, _ => 1
    | .crcInit _, .collect | .crcAcc _, .collect | .setAddr _, .collect | .setCmd _, .collect
    | .setDlen _, .collect | .setBcnt _, .collect => 5
    | .vPush _, .idle | .vEnd, .idle => 6
    | _, _ => (0 : Byte)

/-! ## Registers -/

/-- R20: a register is written only by the commands its row names. -/
def Obligations.RegistersWrittenOnlyByTheirCommands : Prop :=
  (∀ (i : Instr) (s t : State) (r : Reg), exec i s = .next t → writes i r = false →
    regValue r t = regValue r s) ∧
  ∀ (w : CmdWord) (c : Cause) (s t : State) (r : Reg), decode w = .illegal c →
    issue w s = .next t → r ≠ .ecause → r ≠ .rdata → regValue r t = regValue r s

/-- R20: a command that does not read a register answers and writes the same whatever the register
holds; the register itself is written with the same value or keeps what it held. An illegal command
keeps the first cause (R171), so only of a command legal in its state is that said of ECAUSE. -/
def Obligations.RegistersReadOnlyByTheirCommands : Prop :=
  ∀ (i : Instr) (r : Reg) (s s' t t' : State), reads i r = false → AgreeExcept r s s' →
    exec i s = .next t → exec i s' = .next t' →
    AgreeExcept r t t' ∧
    (r ≠ .ecause ∨ illegalInState i s.vst = none →
      regValue r t = regValue r t' ∨
      (regValue r t = regValue r s ∧ regValue r t' = regValue r s'))

/-- R37: the host sees PEND only as ACT after a VALID or MISMATCH result, and sees CRC at any
time. -/
def Obligations.PendIsHiddenUntilTheResult : Prop :=
  (∀ (i : Instr) (s t t' : State) (v : Byte), i ≠ .vEnd → exec i s = .next t →
    exec i { s with pend := v } = .next t' → t.rdata = t'.rdata) ∧
  (∀ s t : State, s.vst = .collect → exec .vEnd s = .next t → t.code = 1 ∨ t.code = 2 →
    t.act = s.pend) ∧
  ∀ s : State, exec .crcRd s = .next { s with rdata := s.crc }

/-- R31: the fields of STATUS. -/
def Obligations.StatusByteLayout : Prop :=
  (∀ s : State,
    (statusByte s).extractLsb' 0 3 = s.code ∧
    (statusByte s).extractLsb' 3 3 = 0#3 ∧
    ((statusByte s).getLsbD 6 = true ↔ s.vst = .collect) ∧
    ((statusByte s).getLsbD 7 = true ↔ s.ecause ≠ 0x00)) ∧
  ∀ (i : Instr) (s t : State), exec i s = .next t → t.code ≠ s.code → t.code ≤ 4

/-! ## Reset -/

/-- R38: the registers after reset. -/
def Obligations.ResetValues : Prop :=
  State.reset.crc = 0x00 ∧ State.reset.daddr = 0x00 ∧ State.reset.cmd = 0x00 ∧
  State.reset.dlen = 0x01 ∧ State.reset.bcnt = 0x00 ∧ State.reset.vst = .idle ∧
  State.reset.pend = 0x00 ∧ State.reset.rcnt = 0x00 ∧ State.reset.code = 0 ∧
  State.reset.exp = 0x00 ∧ State.reset.act = 0x00 ∧ State.reset.ecause = 0x00 ∧
  State.reset.rdata = 0x00

/-- What R38 derives from R146: with BCNT = 0x00, as after reset, a validation reports INVALID_LENGTH
whatever words stand before it and inside it, as long as none before it is SET_BCNT. -/
def Obligations.UnconfiguredValidationIsInvalidLength : Prop :=
  State.reset.bcnt = 0x00 ∧
  ∀ (before inside : List CmdWord) (s : State), s.bcnt = 0x00 →
    (∀ w ∈ before, ∀ n : Byte, decode w ≠ .command (.setBcnt n)) →
    (∀ w ∈ inside, decode w ≠ .command .vEnd) →
    ∃ t, runWords (before ++ encode .vBegin :: inside ++ [encode .vEnd]) s = .next t ∧
      t.code = 3 ∧ t.exp = 0x00 ∧ t.act = 0x00 ∧ t.vst = .idle

/-- R190: the reset input sets every register, from every state; no command word clears ECAUSE.
`inputs` is no register (log entry 1). -/
def Obligations.ResetLoadsEveryRegister : Prop :=
  (∀ s : State, accept .reset s =
    .next { s with crc := 0x00, daddr := 0x00, cmd := 0x00, dlen := 0x01, bcnt := 0x00,
                   vst := .idle, pend := 0x00, rcnt := 0x00, code := 0, exp := 0x00,
                   act := 0x00, ecause := 0x00, rdata := 0x00 }) ∧
  ∀ (w : CmdWord) (s t : State), s.ecause ≠ 0x00 → issue w s = .next t → t.ecause ≠ 0x00

/-- R191: nothing of the power-up draw (log entry 4) is left after a reset: a run from power-up that
begins with one goes on as the run from reset does. -/
def Obligations.ResetForgetsPowerUp : Prop :=
  ∀ (ws : List CmdWord) (k : Nat),
    Host.Core.run core (k + 1) (State.powerUp (.reset :: ws.map .command)) =
      Host.Core.run core k { State.reset with inputs := ws.map .command }

/-- R192: after reset every word is accepted, and RD_STATUS returns 0x00. -/
def Obligations.AfterResetEveryWordIsAccepted : Prop :=
  (∀ w : CmdWord, ∃ t, issue w State.reset = .next t) ∧
  issue 0xC000 State.reset = .next { State.reset with rdata := 0x00 }

/-! ## Steps and runs -/

/-- R48, R63: a step performs the command its word decodes to, on the state left by the earlier
ones, and nothing more. Where the words stand is the model's (log entries 1 and 3). -/
def Obligations.StepRunsDecodedInstruction : Prop :=
  (∀ (s : State) (w : CmdWord) (rest : List Input) (i : Instr),
    s.inputs = .command w :: rest → decode w = .command i →
    step s = exec i { s with inputs := rest }) ∧
  (∀ (s : State) (w : CmdWord) (rest : List Input) (c : Cause),
    s.inputs = .command w :: rest → decode w = .illegal c →
    step s = .next (takeIllegal c { s with inputs := rest })) ∧
  ∀ (s : State) (nbits w : Nat) (i : Instr), decodeTableWord nbits w = some i →
    step (s.withFetchWord nbits w) = exec i s

/-- R48: the inputs are taken one at a time in the host's order, a reset among them; with none
offered the core keeps its state (R184). The list is the model's (log entries 1 and 2). -/
def Obligations.StepTakesTheOldestInput : Prop :=
  (∀ s t : State, step s = .next t → t.inputs = s.inputs.tail) ∧
  (∀ (s : State) (rest : List Input), s.inputs = .reset :: rest →
    step s = .next { State.reset with inputs := rest }) ∧
  ∀ s t : State, step s = .next t → s.inputs = [] → t = s

/-- R171, R197: from every state and for any number of steps, the core goes on. -/
def Obligations.NoRunEndsInAFault : Prop :=
  ∀ (k : Nat) (s : State), ∃ t : State, Host.Core.run core k s = Host.Outcome.next t

/-- R34, R197: a run has one response per word, ends with the last of them in RDATA, and its ECAUSE
is the cause of the first illegal command since reset, 0 exactly if there was none. -/
def Obligations.RunRecordsFirstIllegalCause : Prop :=
  ∀ ws : List CmdWord, ∃ t, (observe ws).final = .next t ∧
    (observe ws).rdatas.length = ws.length ∧
    t.rdata = (observe ws).rdatas.getLastD 0x00 ∧
    t.ecause = (match firstCause ws State.reset with
      | some c => causeCode c
      | none => 0x00) ∧
    (noIllegalSinceReset t ↔ firstCause ws State.reset = none)

/-! ## Invariants -/

/-- R31, R172: every step keeps CODE at most 4 and ECAUSE at most 6. -/
def Obligations.StepKeepsLegalCodes : Prop :=
  ∀ s t : State, LegalCodes s → step s = .next t → LegalCodes t

/-- R31, R32, R144, R145: every step keeps the open validation's form. -/
def Obligations.StepKeepsOpenValidation : Prop :=
  ∀ s t : State, OpenValidation s → step s = .next t → OpenValidation t

/-- R32, R33, R146: every step keeps what EXP and ACT hold beside each result code. -/
def Obligations.StepKeepsResultRegisters : Prop :=
  ∀ s t : State, ResultRegisters s → step s = .next t → ResultRegisters t

/-- The three invariants hold after reset (R38). -/
def Obligations.ResetMeetsTheInvariants : Prop :=
  LegalCodes State.reset ∧ OpenValidation State.reset ∧ ResultRegisters State.reset

/-! ## The validation sequence -/

/-- R30, R106, R151's invariant: after V_BEGIN and any pushes, CRC covers the header and every
pushed byte but the last, which is in PEND; RCNT counts, saturating; the parameters stand; and
CRC_RD answers that partial CRC. -/
def Obligations.PushesStreamTheResponse : Prop :=
  ∀ (r : List Byte) (s : State),
    ∃ t, runWords (encode .vBegin :: r.map fun b => encode (.vPush b)) s = .next t ∧
      t.crc = accumulate 0x00 (headerBytes s.daddr s.cmd s.dlen s.bcnt ++ r.dropLast) ∧
      t.pend = r.getLastD 0x00 ∧ t.rcnt.toNat = min r.length 255 ∧ t.vst = .collect ∧
      t.daddr = s.daddr ∧ t.cmd = s.cmd ∧ t.dlen = s.dlen ∧ t.bcnt = s.bcnt ∧
      t.code = 0 ∧ t.exp = 0x00 ∧ t.act = 0x00 ∧
      exec .crcRd t = .next { t with
        rdata := accumulate 0x00 (headerBytes s.daddr s.cmd s.dlen s.bcnt ++ r.dropLast) }

/-- R151: the commands interleaved with a validation change only RDATA, and ECAUSE for the illegal
words. -/
def Obligations.InterleavedWordsDisturbNothing : Prop :=
  ∀ (w : CmdWord) (s : State), interleaved s.vst w = true →
    ∃ e v, issue w s = .next { s with ecause := e, rdata := v } ∧
      (illegalCause w s = none → e = s.ecause)

/-- R151, the agreement: from any state with VST = IDLE, the command sequence of a validation, with
the six reads and illegal words anywhere after the SET_* commands, leaves CODE, EXP, ACT, CRC and
VST as `Validate` says. -/
def Obligations.CommandSequenceAgreesWithValidate : Prop :=
  ∀ (a : Addr7) (c d n : Byte) (r : List Byte) (before inside after : List CmdWord) (s : State),
    s.vst = .idle → (∀ w ∈ before, interleaved .idle w = true) →
    inside.filter (fun w => !interleaved .collect w) = r.map (fun b => encode (.vPush b)) →
    (∀ w ∈ after, interleaved .idle w = true) →
    ∃ t, runWords (setupWords a c d n ++
        (before ++ encode .vBegin :: inside ++ encode .vEnd :: after)) s = .next t ∧
      (t.code, t.exp, t.act) = resultOf (validate a c d n r) r ∧
      t.crc = accumulate 0x00 (headerBytes a c d n ++ r.dropLast) ∧ t.vst = .idle
end

