-- ==== Sys2Proof/Laws/Crc.lean ====
section
/-! SUPPORT. What the table and the pure functions answer. -/

namespace Sys2Proof.Laws

open Sys2Proof.Machine

/-- The ROM holds `GenTable(i)` at index i (R81). -/
@[simp] theorem tableRead_eq_genTable : ∀ i : Byte, tableRead i = genTable i := by decide

@[simp] theorem accumulate_nil (c : Byte) : accumulate c [] = c := rfl

@[simp] theorem accumulate_cons (c b : Byte) (bs : List Byte) :
    accumulate c (b :: bs) = accumulate (genTable (c ^^^ b)) bs := by
  rw [accumulate, tableRead_eq_genTable]

/-- The two cases of R124. -/
theorem buildFrame_eq_none_iff (a : Addr7) (c d n : Byte) (r : List Byte) :
    buildFrame a c d n r = none ↔ badByteCount n = true := by
  unfold buildFrame; split <;> simp_all

theorem buildFrame_of_good {n : Byte} (h : badByteCount n = false) (a : Addr7) (c d : Byte)
    (r : List Byte) : buildFrame a c d n r = some (headerBytes a c d n ++ r.dropLast) := by
  simp [buildFrame, h]

/-- `Validate` when the byte count is out of range (R126). -/
theorem validate_of_bad {n : Byte} (h : badByteCount n = true) (a : Addr7) (c d : Byte)
    (r : List Byte) : validate a c d n r = .invalidLength := by
  simp [validate, buildFrame, h]

/-- `Validate` past the byte count's check: a response too short (R125). -/
theorem validate_of_short {n : Byte} (hb : badByteCount n = false) {r : List Byte}
    (hr : r.length < 2) (a : Addr7) (c d : Byte) : validate a c d n r = .emptyResponse := by
  rw [validate, buildFrame_of_good hb]
  exact if_pos hr

/-- `Validate` when the PEC agrees (R121). -/
theorem validate_of_equal {a : Addr7} {c d n : Byte} {r : List Byte}
    (hb : badByteCount n = false) (hr : 2 ≤ r.length)
    (he : accumulate 0x00 (headerBytes a c d n ++ r.dropLast) = r.getLastD 0x00) :
    validate a c d n r = .valid := by
  rw [validate, buildFrame_of_good hb]
  exact (if_neg (Nat.not_lt.mpr hr)).trans (if_pos he)

/-- `Validate` when the PEC differs (R121). -/
theorem validate_of_differ {a : Addr7} {c d n : Byte} {r : List Byte}
    (hb : badByteCount n = false) (hr : 2 ≤ r.length)
    (he : accumulate 0x00 (headerBytes a c d n ++ r.dropLast) ≠ r.getLastD 0x00) :
    validate a c d n r =
      .mismatch (accumulate 0x00 (headerBytes a c d n ++ r.dropLast)) (r.getLastD 0x00) := by
  rw [validate, buildFrame_of_good hb]
  exact (if_neg (Nat.not_lt.mpr hr)).trans (if_neg he)

end Sys2Proof.Laws
end

