-- ==== Sys2Proof/Laws/Decode.lean ====
section
/-! SUPPORT. The fields of a word put together from them (30_encoding.md R60). -/

namespace Sys2Proof.Laws

/-- The number a word is, from its fields. -/
theorem toNat_fields (op z : BitVec 4) (imm : Byte) :
    ((op ++ z) ++ imm).toNat = op.toNat * 4096 + z.toNat * 256 + imm.toNat := by
  rw [BitVec.toNat_append, BitVec.toNat_append, ← Nat.shiftLeft_add_eq_or_of_lt imm.isLt,
    ← Nat.shiftLeft_add_eq_or_of_lt z.isLt]
  simp only [Nat.shiftLeft_eq]
  omega

@[simp] theorem opField_append (op z : BitVec 4) (imm : Byte) :
    opField ((op ++ z) ++ imm) = op := by
  apply BitVec.eq_of_toNat_eq
  have h := toNat_fields op z imm
  have := op.isLt
  have := z.isLt
  have := imm.isLt
  simp only [opField, BitVec.extractLsb'_toNat, Nat.shiftRight_eq_div_pow, h]
  omega

@[simp] theorem zField_append (op z : BitVec 4) (imm : Byte) :
    zField ((op ++ z) ++ imm) = z := by
  apply BitVec.eq_of_toNat_eq
  have h := toNat_fields op z imm
  have := z.isLt
  have := imm.isLt
  simp only [zField, BitVec.extractLsb'_toNat, Nat.shiftRight_eq_div_pow, h]
  omega

@[simp] theorem immField_append (op z : BitVec 4) (imm : Byte) :
    immField ((op ++ z) ++ imm) = imm := by
  apply BitVec.eq_of_toNat_eq
  have h := toNat_fields op z imm
  have := imm.isLt
  simp only [immField, BitVec.extractLsb'_toNat, Nat.shiftRight_eq_div_pow, h]
  omega

@[simp] theorem lowField_append (op z : BitVec 4) (imm : Byte) :
    lowField ((op ++ z) ++ imm) = z ++ imm := by
  apply BitVec.eq_of_toNat_eq
  have h := toNat_fields op z imm
  have := z.isLt
  have := imm.isLt
  rw [BitVec.toNat_append, ← Nat.shiftLeft_add_eq_or_of_lt imm.isLt]
  simp only [lowField, BitVec.extractLsb'_toNat, Nat.shiftRight_eq_div_pow, Nat.shiftLeft_eq, h]
  omega

/-- Every word is its three fields. -/
theorem eq_append_fields (w : CmdWord) : w = (opField w ++ zField w) ++ immField w := by
  apply BitVec.eq_of_toNat_eq
  have h := toNat_fields (opField w) (zField w) (immField w)
  have := w.isLt
  refine Eq.trans ?_ h.symm
  simp only [opField, zField, immField, BitVec.extractLsb'_toNat, Nat.shiftRight_eq_div_pow]
  omega

end Sys2Proof.Laws
end

