-- ==== Sys2Proof/Laws/State.lean ====
section
/-! SUPPORT. One lemma per field for each named update of the state, true by unfolding it, so that
no proof unfolds an update. -/

namespace Sys2Proof.Laws

open Sys2Proof.Machine

/-! ## respond -/

@[simp] theorem respond_crc (v : Byte) (s : State) : (respond v s).crc = s.crc := rfl
@[simp] theorem respond_daddr (v : Byte) (s : State) : (respond v s).daddr = s.daddr := rfl
@[simp] theorem respond_cmd (v : Byte) (s : State) : (respond v s).cmd = s.cmd := rfl
@[simp] theorem respond_dlen (v : Byte) (s : State) : (respond v s).dlen = s.dlen := rfl
@[simp] theorem respond_bcnt (v : Byte) (s : State) : (respond v s).bcnt = s.bcnt := rfl
@[simp] theorem respond_vst (v : Byte) (s : State) : (respond v s).vst = s.vst := rfl
@[simp] theorem respond_pend (v : Byte) (s : State) : (respond v s).pend = s.pend := rfl
@[simp] theorem respond_rcnt (v : Byte) (s : State) : (respond v s).rcnt = s.rcnt := rfl
@[simp] theorem respond_code (v : Byte) (s : State) : (respond v s).code = s.code := rfl
@[simp] theorem respond_exp (v : Byte) (s : State) : (respond v s).exp = s.exp := rfl
@[simp] theorem respond_act (v : Byte) (s : State) : (respond v s).act = s.act := rfl
@[simp] theorem respond_ecause (v : Byte) (s : State) : (respond v s).ecause = s.ecause := rfl
@[simp] theorem respond_rdata (v : Byte) (s : State) : (respond v s).rdata = v := rfl
@[simp] theorem respond_inputs (v : Byte) (s : State) : (respond v s).inputs = s.inputs := rfl

/-! ## takeIllegal -/

@[simp] theorem takeIllegal_crc (c : Cause) (s : State) : (takeIllegal c s).crc = s.crc := rfl
@[simp] theorem takeIllegal_daddr (c : Cause) (s : State) : (takeIllegal c s).daddr = s.daddr := rfl
@[simp] theorem takeIllegal_cmd (c : Cause) (s : State) : (takeIllegal c s).cmd = s.cmd := rfl
@[simp] theorem takeIllegal_dlen (c : Cause) (s : State) : (takeIllegal c s).dlen = s.dlen := rfl
@[simp] theorem takeIllegal_bcnt (c : Cause) (s : State) : (takeIllegal c s).bcnt = s.bcnt := rfl
@[simp] theorem takeIllegal_vst (c : Cause) (s : State) : (takeIllegal c s).vst = s.vst := rfl
@[simp] theorem takeIllegal_pend (c : Cause) (s : State) : (takeIllegal c s).pend = s.pend := rfl
@[simp] theorem takeIllegal_rcnt (c : Cause) (s : State) : (takeIllegal c s).rcnt = s.rcnt := rfl
@[simp] theorem takeIllegal_code (c : Cause) (s : State) : (takeIllegal c s).code = s.code := rfl
@[simp] theorem takeIllegal_exp (c : Cause) (s : State) : (takeIllegal c s).exp = s.exp := rfl
@[simp] theorem takeIllegal_act (c : Cause) (s : State) : (takeIllegal c s).act = s.act := rfl
@[simp] theorem takeIllegal_ecause (c : Cause) (s : State) : (takeIllegal c s).ecause = if s.ecause = 0x00 then causeCode c else s.ecause := rfl
@[simp] theorem takeIllegal_rdata (c : Cause) (s : State) : (takeIllegal c s).rdata = 0x00 := rfl
@[simp] theorem takeIllegal_inputs (c : Cause) (s : State) : (takeIllegal c s).inputs = s.inputs := rfl

/-! ## applyReset -/

@[simp] theorem applyReset_crc (s : State) : (applyReset s).crc = 0x00 := rfl
@[simp] theorem applyReset_daddr (s : State) : (applyReset s).daddr = 0x00 := rfl
@[simp] theorem applyReset_cmd (s : State) : (applyReset s).cmd = 0x00 := rfl
@[simp] theorem applyReset_dlen (s : State) : (applyReset s).dlen = 0x01 := rfl
@[simp] theorem applyReset_bcnt (s : State) : (applyReset s).bcnt = 0x00 := rfl
@[simp] theorem applyReset_vst (s : State) : (applyReset s).vst = .idle := rfl
@[simp] theorem applyReset_pend (s : State) : (applyReset s).pend = 0x00 := rfl
@[simp] theorem applyReset_rcnt (s : State) : (applyReset s).rcnt = 0x00 := rfl
@[simp] theorem applyReset_code (s : State) : (applyReset s).code = codeNone := rfl
@[simp] theorem applyReset_exp (s : State) : (applyReset s).exp = 0x00 := rfl
@[simp] theorem applyReset_act (s : State) : (applyReset s).act = 0x00 := rfl
@[simp] theorem applyReset_ecause (s : State) : (applyReset s).ecause = 0x00 := rfl
@[simp] theorem applyReset_rdata (s : State) : (applyReset s).rdata = 0x00 := rfl
@[simp] theorem applyReset_inputs (s : State) : (applyReset s).inputs = s.inputs := rfl

/-! ## beginValidation -/

@[simp] theorem beginValidation_crc (s : State) : (beginValidation s).crc = accumulate pecSeed (headerOf s) := rfl
@[simp] theorem beginValidation_daddr (s : State) : (beginValidation s).daddr = s.daddr := rfl
@[simp] theorem beginValidation_cmd (s : State) : (beginValidation s).cmd = s.cmd := rfl
@[simp] theorem beginValidation_dlen (s : State) : (beginValidation s).dlen = s.dlen := rfl
@[simp] theorem beginValidation_bcnt (s : State) : (beginValidation s).bcnt = s.bcnt := rfl
@[simp] theorem beginValidation_vst (s : State) : (beginValidation s).vst = .collect := rfl
@[simp] theorem beginValidation_pend (s : State) : (beginValidation s).pend = 0x00 := rfl
@[simp] theorem beginValidation_rcnt (s : State) : (beginValidation s).rcnt = 0x00 := rfl
@[simp] theorem beginValidation_code (s : State) : (beginValidation s).code = codeNone := rfl
@[simp] theorem beginValidation_exp (s : State) : (beginValidation s).exp = 0x00 := rfl
@[simp] theorem beginValidation_act (s : State) : (beginValidation s).act = 0x00 := rfl
@[simp] theorem beginValidation_ecause (s : State) : (beginValidation s).ecause = s.ecause := rfl
@[simp] theorem beginValidation_rdata (s : State) : (beginValidation s).rdata = accumulate pecSeed (headerOf s) := rfl
@[simp] theorem beginValidation_inputs (s : State) : (beginValidation s).inputs = s.inputs := rfl

/-! ## pushByte -/

@[simp] theorem pushByte_crc (b : Byte) (s : State) : (pushByte b s).crc = if 1 ≤ s.rcnt then foldByte s s.pend else s.crc := rfl
@[simp] theorem pushByte_daddr (b : Byte) (s : State) : (pushByte b s).daddr = s.daddr := rfl
@[simp] theorem pushByte_cmd (b : Byte) (s : State) : (pushByte b s).cmd = s.cmd := rfl
@[simp] theorem pushByte_dlen (b : Byte) (s : State) : (pushByte b s).dlen = s.dlen := rfl
@[simp] theorem pushByte_bcnt (b : Byte) (s : State) : (pushByte b s).bcnt = s.bcnt := rfl
@[simp] theorem pushByte_vst (b : Byte) (s : State) : (pushByte b s).vst = s.vst := rfl
@[simp] theorem pushByte_pend (b : Byte) (s : State) : (pushByte b s).pend = b := rfl
@[simp] theorem pushByte_rcnt (b : Byte) (s : State) : (pushByte b s).rcnt = countPush s.rcnt := rfl
@[simp] theorem pushByte_code (b : Byte) (s : State) : (pushByte b s).code = s.code := rfl
@[simp] theorem pushByte_exp (b : Byte) (s : State) : (pushByte b s).exp = s.exp := rfl
@[simp] theorem pushByte_act (b : Byte) (s : State) : (pushByte b s).act = s.act := rfl
@[simp] theorem pushByte_ecause (b : Byte) (s : State) : (pushByte b s).ecause = s.ecause := rfl
@[simp] theorem pushByte_rdata (b : Byte) (s : State) : (pushByte b s).rdata = countPush s.rcnt := rfl
@[simp] theorem pushByte_inputs (b : Byte) (s : State) : (pushByte b s).inputs = s.inputs := rfl

/-! ## closeValidation s -/

@[simp] theorem closeValidation_crc (s : State) : (closeValidation s).crc = s.crc := rfl
@[simp] theorem closeValidation_daddr (s : State) : (closeValidation s).daddr = s.daddr := rfl
@[simp] theorem closeValidation_cmd (s : State) : (closeValidation s).cmd = s.cmd := rfl
@[simp] theorem closeValidation_dlen (s : State) : (closeValidation s).dlen = s.dlen := rfl
@[simp] theorem closeValidation_bcnt (s : State) : (closeValidation s).bcnt = s.bcnt := rfl
@[simp] theorem closeValidation_vst (s : State) : (closeValidation s).vst = .idle := rfl
@[simp] theorem closeValidation_pend (s : State) : (closeValidation s).pend = s.pend := rfl
@[simp] theorem closeValidation_rcnt (s : State) : (closeValidation s).rcnt = s.rcnt := rfl
@[simp] theorem closeValidation_code (s : State) : (closeValidation s).code = resultCode s := rfl
@[simp] theorem closeValidation_exp (s : State) : (closeValidation s).exp = resultByte s s.crc := rfl
@[simp] theorem closeValidation_act (s : State) : (closeValidation s).act = resultByte s s.pend := rfl
@[simp] theorem closeValidation_ecause (s : State) : (closeValidation s).ecause = s.ecause := rfl
@[simp] theorem closeValidation_rdata (s : State) : (closeValidation s).rdata = s.rdata := rfl
@[simp] theorem closeValidation_inputs (s : State) : (closeValidation s).inputs = s.inputs := rfl

end Sys2Proof.Laws
end

