-- ==== Sys2Proof/Laws/Ops.lean ====
section
/-! SUPPORT. What each shared operation can answer, said once. -/

namespace Sys2Proof.Laws

open Sys2Proof.Machine

/-! ## The state-dependent checks (R173) -/

theorem whileIdle_of_idle {s : State} (h : s.vst = .idle) (e : State) :
    whileIdle s e = .next e := by
  simp [whileIdle, h]

theorem whileIdle_of_collect {s : State} (h : s.vst = .collect) (e : State) :
    whileIdle s e = .next (takeIllegal .busy s) := by
  simp [whileIdle, h]

theorem whileOpen_of_collect {s : State} (h : s.vst = .collect) (e : State) :
    whileOpen s e = .next e := by
  simp [whileOpen, h]

theorem whileOpen_of_idle {s : State} (h : s.vst = .idle) (e : State) :
    whileOpen s e = .next (takeIllegal .notOpen s) := by
  simp [whileOpen, h]

/-- Everything a command permitted only in IDLE can do. -/
theorem whileIdle_cases {s e t : State} (h : whileIdle s e = .next t) :
    (s.vst = .idle ∧ t = e) ∨ (s.vst = .collect ∧ t = takeIllegal .busy s) := by
  cases hv : s.vst <;> simp [whileIdle, hv] at h <;> simp [h]

/-- Everything a command permitted only in COLLECT can do. -/
theorem whileOpen_cases {s e t : State} (h : whileOpen s e = .next t) :
    (s.vst = .collect ∧ t = e) ∨ (s.vst = .idle ∧ t = takeIllegal .notOpen s) := by
  cases hv : s.vst <;> simp [whileOpen, hv] at h <;> simp [h]

/-! ## The result of a validation (R146) -/

theorem shortResponse_iff (s : State) : shortResponse s = true ↔ s.rcnt < 2 := by
  unfold shortResponse
  exact decide_eq_true_iff

theorem resultCode_of_bad {s : State} (hb : badByteCount s.bcnt = true) :
    resultCode s = codeInvalidLength := by
  simp [resultCode, hb]

theorem resultCode_of_short {s : State} (hb : badByteCount s.bcnt = false)
    (hr : shortResponse s = true) : resultCode s = codeEmptyResponse := by
  simp [resultCode, hb, hr]

theorem resultCode_of_long {s : State} (hb : badByteCount s.bcnt = false)
    (hr : shortResponse s = false) :
    resultCode s = if s.crc = s.pend then codeValid else codeMismatch := by
  simp [resultCode, hb, hr]

theorem resultByte_of_bad {s : State} (hb : badByteCount s.bcnt = true) (v : Byte) :
    resultByte s v = 0x00 := by
  simp [resultByte, hb]

theorem resultByte_of_short {s : State} (hr : shortResponse s = true) (v : Byte) :
    resultByte s v = 0x00 := by
  simp [resultByte, hr]

theorem resultByte_of_long {s : State} (hb : badByteCount s.bcnt = false)
    (hr : shortResponse s = false) (v : Byte) : resultByte s v = v := by
  simp [resultByte, hb, hr]

/-- The outcomes of V_END's checks, in their order. -/
theorem closeValidation_cases (s : State) :
    (badByteCount s.bcnt = true ∧ resultCode s = codeInvalidLength ∧
      ∀ v, resultByte s v = 0x00) ∨
    (badByteCount s.bcnt = false ∧ s.rcnt < 2 ∧ resultCode s = codeEmptyResponse ∧
      ∀ v, resultByte s v = 0x00) ∨
    (badByteCount s.bcnt = false ∧ ¬ s.rcnt < 2 ∧
      resultCode s = (if s.crc = s.pend then codeValid else codeMismatch) ∧
      ∀ v, resultByte s v = v) := by
  cases hb : badByteCount s.bcnt with
  | true => exact .inl ⟨rfl, resultCode_of_bad hb, resultByte_of_bad hb⟩
  | false =>
    cases hr : shortResponse s with
    | true =>
      exact .inr (.inl ⟨rfl, (shortResponse_iff s).mp hr, resultCode_of_short hb hr,
        resultByte_of_short hr⟩)
    | false =>
      refine .inr (.inr ⟨rfl, ?_, resultCode_of_long hb hr, resultByte_of_long hb hr⟩)
      rw [← shortResponse_iff, hr]
      decide

/-! ## The port -/

theorem issue_of_command {w : CmdWord} {i : Instr} (h : decode w = .command i) (s : State) :
    issue w s = exec i s := by
  simp [issue, h]

theorem issue_of_illegal {w : CmdWord} {c : Cause} (h : decode w = .illegal c) (s : State) :
    issue w s = .next (takeIllegal c s) := by
  simp [issue, h]

theorem accept_command (w : CmdWord) (s : State) : accept (.command w) s = issue w s := rfl

theorem accept_reset (s : State) : accept .reset s = .next (applyReset s) := rfl

theorem step_of_nil {s : State} (h : s.inputs = []) : step s = .next s := by
  simp [step, takeInput, h]

theorem step_of_cons {s : State} {e : Input} {rest : List Input} (h : s.inputs = e :: rest) :
    step s = accept e { s with inputs := rest } := by
  simp [step, takeInput, h]

/-- Everything a step can do: wait, reset, perform a command, or record an illegal word. -/
theorem step_cases {s t : State} (h : step s = .next t) :
    (s.inputs = [] ∧ t = s) ∨
    ∃ e rest, s.inputs = e :: rest ∧
      ((e = .reset ∧ t = applyReset { s with inputs := rest }) ∨
       ∃ w, e = .command w ∧
        ((∃ i, decode w = .command i ∧ exec i { s with inputs := rest } = .next t) ∨
         ∃ c, decode w = .illegal c ∧ t = takeIllegal c { s with inputs := rest })) := by
  cases hi : s.inputs with
  | nil => rw [step_of_nil hi] at h; cases h; exact .inl ⟨rfl, rfl⟩
  | cons e rest =>
    rw [step_of_cons hi] at h
    refine .inr ⟨e, rest, rfl, ?_⟩
    cases e with
    | reset => rw [accept_reset] at h; cases h; exact .inl ⟨rfl, rfl⟩
    | command w =>
      rw [accept_command] at h
      refine .inr ⟨w, rfl, ?_⟩
      cases hd : decode w with
      | command i => exact .inl ⟨i, rfl, by rwa [issue_of_command hd] at h⟩
      | illegal c => rw [issue_of_illegal hd] at h; cases h; exact .inr ⟨c, rfl, rfl⟩

end Sys2Proof.Laws
end

