-- ==== Sys2Proof/Laws/PerInstr.lean ====
section
/-! SUPPORT. The family `OpcodeRow`: an instruction's word has the bits its row of the opcode
table fixes (30_encoding.md R62: "the match column gives the word with its operand bits zero"). -/

namespace Sys2Proof.Laws

/-- The mask and the match of the instruction's row (R62). -/
def maskMatch (i : Instr) : CmdWord × CmdWord :=
  match i with
  | .reserved _ => (0xF000, 0x0000)
  | .tblRd _ => (0xFF00, 0x1000)
  | .crcInit _ => (0xFF00, 0x2000)
  | .crcAcc _ => (0xFF00, 0x3000)
  | .crcRd => (0xFFFF, 0x4000)
  | .setAddr _ => (0xFF80, 0x5000)
  | .setCmd _ => (0xFF00, 0x6000)
  | .setDlen _ => (0xFF00, 0x7000)
  | .setBcnt _ => (0xFF00, 0x8000)
  | .vBegin => (0xFFFF, 0x9000)
  | .vPush _ => (0xFF00, 0xA000)
  | .vEnd => (0xFFFF, 0xB000)
  | .rdStatus => (0xFFFF, 0xC000)
  | .rdExp => (0xFFFF, 0xD000)
  | .rdAct => (0xFFFF, 0xE000)
  | .rdEcause => (0xFFFF, 0xF000)

/-- The word agrees with the row on the bits the row fixes. -/
def OpcodeRow.Statement (i : Instr) : Prop :=
  encode i &&& (maskMatch i).1 = (maskMatch i).2

theorem OpcodeRow.reserved (low : BitVec 12) : OpcodeRow.Statement (.reserved low) := by
  revert low; unfold OpcodeRow.Statement maskMatch encode; decide
theorem OpcodeRow.tblRd (idx : Byte) : OpcodeRow.Statement (.tblRd idx) := by
  revert idx; unfold OpcodeRow.Statement maskMatch encode; decide
theorem OpcodeRow.crcInit (v : Byte) : OpcodeRow.Statement (.crcInit v) := by
  revert v; unfold OpcodeRow.Statement maskMatch encode; decide
theorem OpcodeRow.crcAcc (b : Byte) : OpcodeRow.Statement (.crcAcc b) := by
  revert b; unfold OpcodeRow.Statement maskMatch encode; decide
theorem OpcodeRow.crcRd : OpcodeRow.Statement .crcRd := by
  unfold OpcodeRow.Statement; decide
theorem OpcodeRow.setAddr (a : Addr7) : OpcodeRow.Statement (.setAddr a) := by
  revert a; unfold OpcodeRow.Statement maskMatch encode; decide
theorem OpcodeRow.setCmd (c : Byte) : OpcodeRow.Statement (.setCmd c) := by
  revert c; unfold OpcodeRow.Statement maskMatch encode; decide
theorem OpcodeRow.setDlen (d : Byte) : OpcodeRow.Statement (.setDlen d) := by
  revert d; unfold OpcodeRow.Statement maskMatch encode; decide
theorem OpcodeRow.setBcnt (n : Byte) : OpcodeRow.Statement (.setBcnt n) := by
  revert n; unfold OpcodeRow.Statement maskMatch encode; decide
theorem OpcodeRow.vBegin : OpcodeRow.Statement .vBegin := by
  unfold OpcodeRow.Statement; decide
theorem OpcodeRow.vPush (b : Byte) : OpcodeRow.Statement (.vPush b) := by
  revert b; unfold OpcodeRow.Statement maskMatch encode; decide
theorem OpcodeRow.vEnd : OpcodeRow.Statement .vEnd := by
  unfold OpcodeRow.Statement; decide
theorem OpcodeRow.rdStatus : OpcodeRow.Statement .rdStatus := by
  unfold OpcodeRow.Statement; decide
theorem OpcodeRow.rdExp : OpcodeRow.Statement .rdExp := by
  unfold OpcodeRow.Statement; decide
theorem OpcodeRow.rdAct : OpcodeRow.Statement .rdAct := by
  unfold OpcodeRow.Statement; decide
theorem OpcodeRow.rdEcause : OpcodeRow.Statement .rdEcause := by
  unfold OpcodeRow.Statement; decide

end Sys2Proof.Laws
end

