-- ==== Sys2Proof/Laws/Run.lean ====
section
/-! SUPPORT. Runs, one step at a time. -/

namespace Sys2Proof.Laws

open Sys2Proof.Machine Sys2Proof.Safety

/-- A run that starts with a step to `t` goes on as the run from `t`. -/
theorem run_of_step (M : Host.Core) (k : Nat) (s t : M.State) (h : M.step s = .next t) :
    M.run (k + 1) s = M.run k t := by
  simp [Host.Core.run, h]

@[simp] theorem runWords_nil (s : State) : runWords [] s = .next { s with inputs := [] } := rfl

/-- The first word of a run is performed with the later ones still to come. -/
theorem runWords_cons {w : CmdWord} {ws : List CmdWord} {s t : State}
    (h : issue w { s with inputs := ws.map .command } = .next t) :
    runWords (w :: ws) s = Host.Core.run core ws.length t :=
  run_of_step core ws.length _ _ h

end Sys2Proof.Laws
end

