-- ==== Sys2Proof/Tests/Slice0.lean ====
section
/-! SUPPORT. Tests of single operations, every expected value from spec/ (the vectors of
95_test_vectors.md, the table of R84, the encodings of R62 written out bit by bit), and for
each statement with hypotheses a witness that meets them. -/

namespace Sys2Proof.Tests

open Sys2Proof.Machine Sys2Proof.Safety

/-- The state an outcome goes on with. -/
def nextOf (o : Host.Outcome State Fault Refusal) : Option State :=
  match o with
  | .next t => some t
  | .fault _ => none
  | .refused _ => none

/-- The reset state with a validation open, `n` bytes pushed. -/
def opened (n : Byte) : State := { State.reset with vst := .collect, rcnt := n }

/-! ## Ill-formed lines: one for each check (R66, R68) -/

theorem test_addr_too_large_is_ill_formed :
    (SourceLine.mk .setAddr [0x80]).wellFormed = false := by decide
theorem test_byte_too_large_is_ill_formed :
    (SourceLine.mk .crcAcc [256]).wellFormed = false := by decide
theorem test_operand_on_none_form_is_ill_formed :
    (SourceLine.mk .crcRd [1]).wellFormed = false := by decide
theorem test_missing_operand_is_ill_formed :
    (SourceLine.mk .vPush []).wellFormed = false := by decide
theorem test_pseudo_arity_is_ill_formed :
    (SourceLine.mk .vSetup [0x40, 0x9B, 0x01]).wellFormed = false := by decide
theorem test_pseudo_operand_is_ill_formed :
    (SourceLine.mk .validate [0x40, 0x9B, 0x01, 0x08, 256]).wellFormed = false := by decide
theorem test_address_line_is_well_formed :
    (SourceLine.mk .setAddr [0x7F]).wellFormed = true := by decide

/-! ## Decoding: each command's word, bit by bit from R62 -/

theorem test_decode_reserved : decode 0b0000_0000_0000_0000 = .command (.reserved 0) := by decide
theorem test_decode_tblRd : decode 0b0001_0000_1001_1011 = .command (.tblRd 0x9B) := by decide
theorem test_decode_crcInit : decode 0b0010_0000_0000_0101 = .command (.crcInit 5) := by decide
theorem test_decode_crcAcc : decode 0b0011_0000_0011_0001 = .command (.crcAcc 0x31) := by decide
theorem test_decode_crcRd : decode 0b0100_0000_0000_0000 = .command .crcRd := by decide
theorem test_decode_setAddr : decode 0b0101_0000_0111_1111 = .command (.setAddr 0x7F) := by decide
theorem test_decode_setCmd : decode 0b0110_0000_1001_1011 = .command (.setCmd 0x9B) := by decide
theorem test_decode_setDlen : decode 0b0111_0000_0000_0001 = .command (.setDlen 1) := by decide
theorem test_decode_setBcnt : decode 0b1000_0000_1111_1111 = .command (.setBcnt 255) := by decide
theorem test_decode_vBegin : decode 0b1001_0000_0000_0000 = .command .vBegin := by decide
theorem test_decode_vPush : decode 0b1010_0000_0101_0100 = .command (.vPush 0x54) := by decide
theorem test_decode_vEnd : decode 0b1011_0000_0000_0000 = .command .vEnd := by decide
theorem test_decode_rdStatus : decode 0b1100_0000_0000_0000 = .command .rdStatus := by decide
theorem test_decode_rdExp : decode 0b1101_0000_0000_0000 = .command .rdExp := by decide
theorem test_decode_rdAct : decode 0b1110_0000_0000_0000 = .command .rdAct := by decide
theorem test_decode_rdEcause : decode 0b1111_0000_0000_0000 = .command .rdEcause := by decide

/-- 0x0100 fails two checks and is cause 1's row (E8), 0xA100 is cause 2 (E9), 0xF001 cause 3
(R150), 0x50FF cause 4 (R64(d)). -/
theorem test_decode_checks_in_order :
    decode 0x0100 = .command (.reserved 0x100) ∧ decode 0xA100 = .illegal .rsvdField ∧
    decode 0xF001 = .illegal .immNonzero ∧ decode 0x50FF = .illegal .addrRange := by decide

/-- The opcode table's numbering: bits above 15 stand for nothing. -/
theorem test_table_word :
    decodeTableWord 16 0x5040 = some (.setAddr 0x40) ∧ decodeTableWord 16 0x1100 = none := by decide

/-! ## The functions -/

/-- The listing of R84, row by row. -/
def listedTable : List Byte :=
  [0x00, 0x07, 0x0E, 0x09, 0x1C, 0x1B, 0x12, 0x15, 0x38, 0x3F, 0x36, 0x31, 0x24, 0x23, 0x2A, 0x2D] ++
  [0x70, 0x77, 0x7E, 0x79, 0x6C, 0x6B, 0x62, 0x65, 0x48, 0x4F, 0x46, 0x41, 0x54, 0x53, 0x5A, 0x5D] ++
  [0xE0, 0xE7, 0xEE, 0xE9, 0xFC, 0xFB, 0xF2, 0xF5, 0xD8, 0xDF, 0xD6, 0xD1, 0xC4, 0xC3, 0xCA, 0xCD] ++
  [0x90, 0x97, 0x9E, 0x99, 0x8C, 0x8B, 0x82, 0x85, 0xA8, 0xAF, 0xA6, 0xA1, 0xB4, 0xB3, 0xBA, 0xBD] ++
  [0xC7, 0xC0, 0xC9, 0xCE, 0xDB, 0xDC, 0xD5, 0xD2, 0xFF, 0xF8, 0xF1, 0xF6, 0xE3, 0xE4, 0xED, 0xEA] ++
  [0xB7, 0xB0, 0xB9, 0xBE, 0xAB, 0xAC, 0xA5, 0xA2, 0x8F, 0x88, 0x81, 0x86, 0x93, 0x94, 0x9D, 0x9A] ++
  [0x27, 0x20, 0x29, 0x2E, 0x3B, 0x3C, 0x35, 0x32, 0x1F, 0x18, 0x11, 0x16, 0x03, 0x04, 0x0D, 0x0A] ++
  [0x57, 0x50, 0x59, 0x5E, 0x4B, 0x4C, 0x45, 0x42, 0x6F, 0x68, 0x61, 0x66, 0x73, 0x74, 0x7D, 0x7A] ++
  [0x89, 0x8E, 0x87, 0x80, 0x95, 0x92, 0x9B, 0x9C, 0xB1, 0xB6, 0xBF, 0xB8, 0xAD, 0xAA, 0xA3, 0xA4] ++
  [0xF9, 0xFE, 0xF7, 0xF0, 0xE5, 0xE2, 0xEB, 0xEC, 0xC1, 0xC6, 0xCF, 0xC8, 0xDD, 0xDA, 0xD3, 0xD4] ++
  [0x69, 0x6E, 0x67, 0x60, 0x75, 0x72, 0x7B, 0x7C, 0x51, 0x56, 0x5F, 0x58, 0x4D, 0x4A, 0x43, 0x44] ++
  [0x19, 0x1E, 0x17, 0x10, 0x05, 0x02, 0x0B, 0x0C, 0x21, 0x26, 0x2F, 0x28, 0x3D, 0x3A, 0x33, 0x34] ++
  [0x4E, 0x49, 0x40, 0x47, 0x52, 0x55, 0x5C, 0x5B, 0x76, 0x71, 0x78, 0x7F, 0x6A, 0x6D, 0x64, 0x63] ++
  [0x3E, 0x39, 0x30, 0x37, 0x22, 0x25, 0x2C, 0x2B, 0x06, 0x01, 0x08, 0x0F, 0x1A, 0x1D, 0x14, 0x13] ++
  [0xAE, 0xA9, 0xA0, 0xA7, 0xB2, 0xB5, 0xBC, 0xBB, 0x96, 0x91, 0x98, 0x9F, 0x8A, 0x8D, 0x84, 0x83] ++
  [0xDE, 0xD9, 0xD0, 0xD7, 0xC2, 0xC5, 0xCC, 0xCB, 0xE6, 0xE1, 0xE8, 0xEF, 0xFA, 0xFD, 0xF4, 0xF3]

theorem test_table_is_the_listed_one : table = listedTable := by decide +kernel

/-- A5, A7, A8 and A9. -/
theorem test_accumulate_vectors :
    accumulate 0x00 [0x31, 0x32, 0x33, 0x34, 0x35, 0x36, 0x37, 0x38, 0x39] = 0xF4 ∧
    accumulate 0xFF [0x00] = 0xF3 ∧ accumulate 0x5A [0x5A] = 0x00 ∧
    accumulate 0x00 [0x31, 0x32, 0x33, 0x34, 0x35, 0x36, 0x37, 0x38, 0x39, 0xF4] = 0x00 := by decide +kernel

/-- F2, F3, F4 and F7. -/
theorem test_frame_vectors :
    buildFrame 0x7F 0x00 0x00 0x01 [0x00] = some [0xFE, 0x00, 0x00, 0x01, 0xFF] ∧
    buildFrame 0x00 0x00 0x00 0x01 [0x00, 0x00] = some [0x00, 0x00, 0x00, 0x01, 0x01, 0x00] ∧
    buildFrame 0x40 0x9B 0x01 0x00 [0x01] = none ∧
    buildFrame 0x40 0x9B 0x01 0x08 [] = some [0x80, 0x9B, 0x01, 0x08, 0x81] := by decide

/-- V1, V2.8, V3 and V6. -/
theorem test_validate_vectors :
    validate 0x40 0x9B 0x01 0x08 [1, 2, 3, 4, 5, 6, 7, 8, 0x54] = .valid ∧
    validate 0x40 0x9B 0x01 0x08 [0, 2, 3, 4, 5, 6, 7, 8, 0x54] = .mismatch 0x47 0x54 ∧
    validate 0x40 0x9B 0x01 0x08 [1, 2, 3, 4, 5, 6, 7, 8, 0x55] = .mismatch 0x54 0x55 ∧
    validate 0x40 0x9B 0x01 0x00 [] = .invalidLength := by decide +kernel

/-- V7, V9, V10 and V11. -/
theorem test_validate_more_vectors :
    validate 0x40 0x9B 0x01 0x01 [0xAB, 0x70] = .valid ∧
    validate 0x00 0x00 0x00 0x01 [0x00, 0x00] = .mismatch 0x7E 0x00 ∧
    validate 0x7F 0xFF 0xFF 0x08 (List.replicate 8 0xFF ++ [0x53]) = .valid ∧
    validate 0x40 0x9B 0x01 0x08 [0x76, 0x31, 0x2E, 0x32, 0x2E, 0x33, 0, 0, 0x6E] = .valid := by
  decide +kernel

/-! ## One command each -/

/-- T8. -/
theorem test_tblRd : nextOf (exec (.tblRd 0xFE) State.reset) =
    some { State.reset with rdata := 0xF4 } := by decide
/-- R104. -/
theorem test_crcInit : nextOf (exec (.crcInit 0x5A) State.reset) =
    some { State.reset with crc := 0x5A, rdata := 0x5A } := by decide
/-- E5: in COLLECT the command is illegal with cause 5 and CRC is unchanged. -/
theorem test_crcInit_busy : nextOf (exec (.crcInit 0x05) { opened 0 with crc := 0x6C }) =
    some { opened 0 with crc := 0x6C, ecause := 5, rdata := 0 } := by decide
/-- P1's third byte: 72 and 33 give C0. -/
theorem test_crcAcc : nextOf (exec (.crcAcc 0x33) { State.reset with crc := 0x72 }) =
    some { State.reset with crc := 0xC0, rdata := 0xC0 } := by decide
/-- R106. -/
theorem test_crcRd : nextOf (exec .crcRd { opened 0 with crc := 0x06 }) =
    some { opened 0 with crc := 0x06, rdata := 0x06 } := by decide
/-- R140. -/
theorem test_setAddr : nextOf (exec (.setAddr 0x40) State.reset) =
    some { State.reset with daddr := 0x40, rdata := 0x40 } := by decide
/-- R141. -/
theorem test_setCmd : nextOf (exec (.setCmd 0x9B) State.reset) =
    some { State.reset with cmd := 0x9B, rdata := 0x9B } := by decide
/-- R142. -/
theorem test_setDlen : nextOf (exec (.setDlen 0xFF) State.reset) =
    some { State.reset with dlen := 0xFF, rdata := 0xFF } := by decide
/-- R143: an out-of-range count is stored. -/
theorem test_setBcnt : nextOf (exec (.setBcnt 0x09) State.reset) =
    some { State.reset with bcnt := 0x09, rdata := 0x09 } := by decide
/-- P5: the reset-state header 00 00 01 00 01 gives 6C. -/
theorem test_vBegin : nextOf (exec .vBegin State.reset) =
    some { State.reset with crc := 0x6C, vst := .collect, rdata := 0x6C } := by decide
/-- E11: a second V_BEGIN restarts, and clears the result registers. -/
theorem test_vBegin_restarts :
    nextOf (exec .vBegin { opened 3 with pend := 7, code := 2, exp := 1, act := 2 }) =
      some { opened 0 with crc := 0x6C, rdata := 0x6C } := by decide
/-- R145: the second push folds the first byte. -/
theorem test_vPush : nextOf (exec (.vPush 0x02) { opened 1 with crc := 0x06, pend := 0x01 }) =
    some { opened 2 with crc := 0x15, pend := 0x02, rdata := 2 } := by decide
/-- R145, E15: at 255 the fold still happens and RCNT stays. -/
theorem test_vPush_saturates :
    nextOf (exec (.vPush 0x02) { opened 255 with crc := 0x06, pend := 0x01 }) =
      some { opened 255 with crc := 0x15, pend := 0x02, rdata := 255 } := by decide
/-- P2's end. -/
theorem test_vEnd_valid :
    nextOf (exec .vEnd { opened 9 with bcnt := 8, crc := 0x54, pend := 0x54 }) =
      some { State.reset with
        rcnt := 9, bcnt := 8, crc := 0x54, pend := 0x54, code := 1, exp := 0x54, act := 0x54,
        rdata := 1 } := by decide
/-- P4's second V_END: ERR is set and one byte was pushed. -/
theorem test_vEnd_empty :
    nextOf (exec .vEnd { opened 1 with bcnt := 8, crc := 6, pend := 0x44, ecause := 6 }) =
      some { State.reset with
        rcnt := 1, bcnt := 8, crc := 6, pend := 0x44, ecause := 6, code := 4, rdata := 0x84 } := by
  decide
/-- E14, with R147's value when ERR is set. -/
theorem test_rdStatus : nextOf (exec .rdStatus { opened 0 with ecause := 6 }) =
    some { opened 0 with ecause := 6, rdata := 0xC0 } := by decide
/-- P3. -/
theorem test_rdExp : nextOf (exec .rdExp { State.reset with exp := 0x47, act := 0x54 }) =
    some { State.reset with exp := 0x47, act := 0x54, rdata := 0x47 } := by decide
theorem test_rdAct : nextOf (exec .rdAct { State.reset with exp := 0x47, act := 0x54 }) =
    some { State.reset with exp := 0x47, act := 0x54, rdata := 0x54 } := by decide
/-- P4. -/
theorem test_rdEcause : nextOf (exec .rdEcause { State.reset with ecause := 6 }) =
    some { State.reset with ecause := 6, rdata := 6 } := by decide
/-- E1. -/
theorem test_reserved : nextOf (issue 0x0000 State.reset) =
    some { State.reset with ecause := 1 } := by decide
/-- E10: the first cause is kept. -/
theorem test_first_cause_is_kept : nextOf (issue 0x5080 { State.reset with ecause := 1 }) =
    some { State.reset with ecause := 1 } := by decide

/-! ## Steps -/

/-- The first instruction after reset is the one offered. -/
theorem test_step_runs_offered_word :
    nextOf (step (State.reset.withFetchWord 16 0x8008)) =
      some { State.reset with bcnt := 8, rdata := 8 } := by decide
/-- R190. -/
theorem test_step_reset : nextOf (step { opened 3 with ecause := 6, inputs := [.reset] }) =
    some State.reset := by decide
/-- R184. -/
theorem test_step_waits : nextOf (step (opened 3)) = some (opened 3) := by decide
/-- R197: the observation of E5's two words. -/
theorem test_observe : (observe [0x9000, 0x2005]).rdatas = [0x6C, 0x00] ∧
    (nextOf (observe [0x9000, 0x2005]).final).map (fun t => t.ecause) = some 5 := by decide

/-! ## The assembler -/

/-- R66's examples, with spacing and a comment. -/
theorem test_assemble_text :
    assembleText "  SET_ADDR 0x40 ; the device".toList = some [0x5040] ∧
    assembleText "V_SETUP 0x40, 155, 1, 8".toList = some [0x5040, 0x609B, 0x7001, 0x8008] ∧
    assembleText "; nothing".toList = some [] ∧
    assembleText "SET_CMD 0x9b".toList = some [0x609B] ∧ assembleText "SET_CMD 9B".toList = none ∧
    assembleText "SET_ADDR 0x80".toList = none ∧ assembleText "CRC_ACC 0x".toList = none := by
  decide

/-! ## Witnesses: each statement's hypotheses can be met -/

theorem witness_DecodingInvertsEncoding : decode 0x507F = .command (.setAddr 0x7F) := by decide
theorem witness_IllegalWordsAreExactlyTheListed :
    (decode 0x0FFF = .command (.reserved 0xFFF) ∧ decode 0x50FF = .illegal .addrRange) ∧
    ¬ ∃ c, decode 0x507F = .illegal c := by
  refine ⟨by decide, ?_⟩
  rw [witness_DecodingInvertsEncoding]
  rintro ⟨c, h⟩
  cases h
theorem witness_AssemblerRejectsWhatDoesNotFit :
    (Mnemonic.vPush, Instr.vPush) ∈ [(Mnemonic.tblRd, Instr.tblRd), (.crcInit, .crcInit),
      (.crcAcc, .crcAcc), (.setCmd, .setCmd), (.setDlen, .setDlen), (.setBcnt, .setBcnt),
      (.vPush, .vPush)] ∧
    (Mnemonic.rdEcause, Instr.rdEcause) ∈ [(Mnemonic.crcRd, Instr.crcRd), (.vBegin, .vBegin),
      (.vEnd, .vEnd), (.rdStatus, .rdStatus), (.rdExp, .rdExp), (.rdAct, .rdAct),
      (.rdEcause, .rdEcause)] := by
  simp
theorem witness_UnconfiguredValidationIsInvalidLength :
    State.reset.bcnt = 0x00 ∧
    (∀ w ∈ [(0x5040 : CmdWord)], ∀ n : Byte, decode w ≠ .command (.setBcnt n)) ∧
    ∀ w ∈ [(0xA0AB : CmdWord)], decode w ≠ .command .vEnd := by
  have h : decode 0x5040 = .command (.setAddr 0x40) := by decide
  refine ⟨rfl, List.forall_mem_singleton.2 fun n => ?_, List.forall_mem_singleton.2 (by decide)⟩
  rw [h]
  rintro ⟨⟩
theorem witness_AccumulationLaws : [0x31, 0x32].length = [(0x00 : Byte), 0xFF].length := by decide
theorem witness_ValidateFailureConditions :
    ((0x00 : Byte).toNat = 0 ∧ 8 < (0x09 : Byte).toNat) ∧
    (1 ≤ (0x08 : Byte).toNat ∧ (0x08 : Byte).toNat ≤ 8 ∧ 1 ≤ (0x01 : Byte).toNat) ∧
    ([0xAB, 0x70] : List Byte) = 0xAB :: 0x70 :: [] := by decide
/-- V7's frame, valid with one data byte, changed in its data, its header and its PEC. -/
theorem witness_OneByteChangeIsAMismatch :
    validate 0x40 0x9B 0x01 0x01 [0xAB, 0x70] = .valid ∧
    (0 + 1 < [(0xAB : Byte), 0x70].length ∧ [(0xAB : Byte), 0x70][0]? ≠ some 0xAA) ∧
    (((0x41 : Addr7) ≠ 0x40 ∧ (0x9B : Byte) = 0x9B ∧ (0x01 : Byte) = 0x01 ∧ (0x01 : Byte) = 0x01) ∧
      ((0x9C : Byte) ≠ 0x9B) ∧ ((0x02 : Byte) ≠ 0x01) ∧
      ((0x08 : Byte) ≠ 0x01 ∧ 1 ≤ (0x08 : Byte).toNat ∧ (0x08 : Byte).toNat ≤ 8)) ∧
    (0x71 : Byte) ≠ [(0xAB : Byte), 0x70].getLastD 0x00 := by decide
/-- The u8, u7 and none forms' masks and nonzero fields, at their ends. -/
theorem witness_operand_forms :
    (0x10FF : CmdWord) &&& 0xFF00#16 = 0x1#4 ++ 0x000#12 ∧
    (0xA000 : CmdWord) &&& 0xFF00#16 = 0xA#4 ++ 0x000#12 ∧
    (0x507F : CmdWord) &&& 0xFF80 = 0x5000 ∧ (0x0FFF : CmdWord) &&& 0xF000 = 0x0000 ∧
    (0x1 : BitVec 4) ≠ 0 ∧ (0xF : BitVec 4) ≠ 0 ∧ (0x01 : Byte) ≠ 0 ∧
    (0x80 : Byte).getLsbD 7 = true := by decide
/-- TBL_RD's and the reads' statements ask nothing of the state; the commands permitted in one
state only are asked of both. -/
theorem witness_idle_and_collect : State.reset.vst = .idle ∧ (opened 0).vst = .collect := by decide
theorem witness_CrcAccFoldsOneByte :
    State.reset.vst = .idle ∧ State.reset.crc = 0x00 ∧
    nextOf (exec (.crcAcc 0x00) State.reset) = some State.reset ∧
    ({ State.reset with crc := 0xFF } : State).crc = 0xFF ∧
    (nextOf (exec (.crcAcc 0x00) { State.reset with crc := 0xFF })).isSome = true ∧
    (nextOf (exec (.crcAcc 0xFF) State.reset)).isSome = true := by decide
theorem witness_SetBcntStoresAnyByteCount :
    (opened 0).vst = .collect ∧ (opened 0).bcnt.toNat = 0 ∧
    9 ≤ ({ opened 0 with bcnt := 9 } : State).bcnt.toNat := by decide
/-- The parameters of the rules' worked example, which RD_STATUS's, RD_EXP's, RD_ACT's and V_END's
statements also ask for. -/
theorem witness_VBeginOpensValidation :
    (∃ s : State, s.daddr = 0x40 ∧ s.cmd = 0x9B ∧ s.dlen = 0x01 ∧ s.bcnt = 0x08 ∧ s.ecause = 0) ∧
    (State.reset.bcnt.toNat = 0 ∧ (nextOf (exec .vBegin State.reset)).isSome = true) ∧
    8 < ({ opened 0 with bcnt := 9 } : State).bcnt.toNat :=
  ⟨⟨{ State.reset with daddr := 0x40, cmd := 0x9B, bcnt := 0x08 }, by decide⟩, by decide, by decide⟩
theorem witness_VPushHoldsBackOneByte :
    ((opened 0).vst = .collect ∧ (opened 0).rcnt.toNat = 0) ∧
    (1 ≤ (opened 1).rcnt.toNat ∧ (opened 254).rcnt.toNat < 255) ∧
    (opened 255).rcnt.toNat = 255 ∧ State.reset.vst = .idle ∧
    ({ opened 0 with crc := 0x06 } : State).crc = 0x06 := by decide
theorem witness_VEndReportsResult :
    (OpenValidation { opened 0 with crc := 0x6C } ∧ (opened 0).rcnt.toNat = 0) ∧
    ((opened 0).vst = .collect ∧ (opened 0).bcnt.toNat = 0) ∧
    8 < ({ opened 0 with bcnt := 9 } : State).bcnt.toNat ∧
    (({ opened 1 with bcnt := 8 } : State).bcnt.toNat ≤ 8 ∧ (opened 1).rcnt.toNat < 2) ∧
    (1 ≤ ({ opened 2 with bcnt := 1 } : State).bcnt.toNat ∧ 2 ≤ (opened 2).rcnt.toNat ∧
      (opened 2).crc = (opened 2).pend) ∧
    ({ opened 2 with bcnt := 1, crc := 1 } : State).crc ≠ (opened 2).pend ∧
    State.reset.vst = .idle := ⟨⟨fun _ => by decide, by decide⟩, by decide⟩
theorem witness_RdStatusAnswersStatus :
    OpenValidation { opened 0 with crc := 0x6C } ∧ (opened 0).vst = .collect :=
  ⟨fun _ => by decide, by decide⟩
theorem witness_RdExpAnswersExpected :
    ResultRegisters { State.reset with code := 4 } ∧ LegalCodes { State.reset with code := 4 } ∧
    (4 : BitVec 3) ≠ 1 ∧ (4 : BitVec 3) ≠ 2 := by
  refine ⟨?_, ?_, by decide, by decide⟩
  · unfold ResultRegisters; decide
  · unfold LegalCodes; decide
theorem witness_RdActAnswersActual :
    ResultRegisters { State.reset with code := 3 } ∧ LegalCodes { State.reset with code := 3 } ∧
    (3 : BitVec 3) ≠ 1 ∧ (3 : BitVec 3) ≠ 2 := by
  refine ⟨?_, ?_, by decide, by decide⟩
  · unfold ResultRegisters; decide
  · unfold LegalCodes; decide
theorem witness_RdEcauseAnswersFirstCause :
    State.reset.ecause = 0x00 ∧ State.reset.vst = .idle ∧
    firstCause [0x9000, 0xA001] State.reset = none ∧
    (nextOf (runWords [0x9000, 0xA001] State.reset)).isSome = true := by decide
theorem witness_IllegalCommandHasExactlyOneEffect :
    illegalCause 0x0000 State.reset = some .rsvdOp ∧ illegalCause 0xA033 State.reset = some .notOpen ∧
    illegalCause 0x2005 (opened 0) = some .busy := by decide
theorem witness_CausesOfIllegality :
    State.reset.ecause = 0x00 ∧ illegalCause 0x9000 State.reset = none := by decide
theorem witness_FirstFailingCheckGivesCause :
    State.reset.vst = .idle ∧ State.reset.ecause = 0x00 := by decide
theorem witness_EcauseIsStickyUntilReset :
    (nextOf (issue 0x0000 State.reset)).isSome = true ∧
    ({ opened 0 with ecause := 6 } : State).ecause ≠ 0x00 ∧
    (nextOf (accept .reset { opened 0 with ecause := 6 })).isSome = true ∧
    (nextOf (accept (.command 0xF000) { opened 0 with ecause := 6 })).isSome = true := by decide
theorem witness_ValidatorStateMachine :
    (nextOf (exec .vEnd State.reset)).isSome = true ∧ decode 0x4001 = .illegal .immNonzero ∧
    (nextOf (issue 0x4001 (opened 0))).isSome = true ∧ State.reset.ecause = 0x00 := by decide
theorem witness_RegistersWrittenOnlyByTheirCommands :
    (nextOf (exec .vEnd (opened 0))).isSome = true ∧ writes .vEnd .crc = false ∧
    decode 0x5080 = .illegal .addrRange ∧ (nextOf (issue 0x5080 State.reset)).isSome = true := by
  decide
theorem witness_RegistersReadOnlyByTheirCommands :
    reads .rdStatus .crc = false ∧ AgreeExcept .crc State.reset { State.reset with crc := 0x54 } ∧
    (nextOf (exec .rdStatus State.reset)).isSome = true ∧
    (nextOf (exec .rdStatus { State.reset with crc := 0x54 })).isSome = true ∧
    reads .vBegin .ecause = false ∧ illegalInState .vBegin State.reset.vst = none ∧
    reads .vBegin .rdata = false ∧ Reg.rdata ≠ .ecause := by
  refine ⟨by decide, ⟨?_, rfl⟩, by decide⟩
  intro q hq
  cases q <;> first | rfl | exact absurd rfl hq
theorem witness_PendIsHiddenUntilTheResult :
    (nextOf (exec (.vPush 1) (opened 2))).isSome = true ∧
    (nextOf (exec (.vPush 1) { opened 2 with pend := 5 })).isSome = true ∧
    (nextOf (exec .vEnd { opened 2 with bcnt := 1 })).map (fun t => t.code) = some 1 ∧
    (nextOf (exec .vEnd { opened 2 with bcnt := 1, pend := 1 })).map (fun t => t.code) = some 2 := by
  decide
theorem witness_StatusByteLayout :
    (nextOf (exec .vEnd (opened 0))).map (fun t => t.code) = some 3 ∧ (opened 0).code ≠ 3 := by
  decide
theorem witness_ResetLoadsEveryRegister :
    ({ opened 3 with ecause := 6 } : State).ecause ≠ 0x00 ∧
    (nextOf (issue 0xF000 { opened 3 with ecause := 6 })).isSome = true := by decide
theorem witness_StepRunsDecodedInstruction :
    (State.reset.withFetchWord 16 0x8008).inputs = .command 0x8008 :: [] ∧
    decode 0x8008 = .command (.setBcnt 8) ∧ decode 0x4001 = .illegal .immNonzero ∧
    ({ State.reset with inputs := [.command 0x4001] } : State).inputs = .command 0x4001 :: [] ∧
    decodeTableWord 16 0x8008 = some (.setBcnt 8) := by decide
theorem witness_StepTakesTheOldestInput :
    (nextOf (step (State.reset.withFetchWord 16 0x8008))).isSome = true ∧
    (nextOf (step State.reset)).isSome = true ∧ State.reset.inputs = [] ∧
    ({ opened 3 with inputs := [.reset] } : State).inputs = .reset :: [] := by decide
/-- A state with a first byte pushed, and its step on the next push, meets every invariant's
premises. -/
theorem witness_StepKeepsInvariants :
    LegalCodes { opened 1 with crc := 0x6C, inputs := [.command 0xA001] } ∧
    OpenValidation { opened 1 with crc := 0x6C, inputs := [.command 0xA001] } ∧
    ResultRegisters { opened 1 with crc := 0x6C, inputs := [.command 0xA001] } ∧
    (nextOf (step { opened 1 with crc := 0x6C, inputs := [.command 0xA001] })).isSome = true := by
  refine ⟨?_, fun _ => by decide, ?_, by decide⟩
  · unfold LegalCodes; decide
  · unfold ResultRegisters; decide
theorem witness_InterleavedWordsDisturbNothing :
    interleaved .idle 0x4000 = true ∧ interleaved .collect 0x0FFF = true ∧
    interleaved .collect 0x4001 = true ∧ interleaved .collect 0x2000 = true ∧
    interleaved .idle 0xB000 = true ∧ interleaved .idle 0x9000 = false ∧
    illegalCause 0x4000 State.reset = none := by decide
/-- A validation of one data byte: an illegal word before V_BEGIN, a read and a refused SET_ADDR among
the pushes, a read after V_END. -/
theorem witness_CommandSequenceAgreesWithValidate :
    State.reset.vst = .idle ∧
    (∀ w ∈ [(0xA033 : CmdWord)], interleaved .idle w = true) ∧
    [(0xA0AB : CmdWord), 0x4000, 0x5040, 0xA070].filter (fun w => !interleaved .collect w) =
      [0xAB, 0x70].map (fun b => encode (.vPush b)) ∧
    ∀ w ∈ [(0xC000 : CmdWord)], interleaved .idle w = true := by
  have h1 : interleaved .collect 0xA0AB = false := by decide
  have h2 : interleaved .collect 0x4000 = true := by decide
  have h3 : interleaved .collect 0x5040 = true := by decide
  have h4 : interleaved .collect 0xA070 = false := by decide
  have h5 : interleaved .idle 0xA033 = true := by decide
  have h6 : interleaved .idle 0xC000 = true := by decide
  refine ⟨rfl, List.forall_mem_singleton.2 h5, ?_, List.forall_mem_singleton.2 h6⟩
  rw [List.filter_cons_of_pos (by rw [h1]; rfl), List.filter_cons_of_neg (by rw [h2]; decide),
    List.filter_cons_of_neg (by rw [h3]; decide), List.filter_cons_of_pos (by rw [h4]; rfl)]
  decide

end Sys2Proof.Tests
end

section
/-! PROOFS of the statements on the registers (10_state.md): ECAUSE, ERR and the reset values. -/

namespace Sys2Proof.Proofs

open Sys2Proof.Machine Sys2Proof.Safety Sys2Proof.Laws

/-! ## Legality of a command in its state (R173) -/

/-- An illegal command of the state checks has exactly the effect of R171. -/
theorem exec_of_illegalInState {i : Instr} {s : State} {c : Cause}
    (h : illegalInState i s.vst = some c) : exec i s = .next (takeIllegal c s) := by
  cases hv : s.vst with
  | idle =>
    rw [hv] at h
    cases i
    case reserved => cases h; rfl
    case vPush | vEnd => cases h; exact whileOpen_of_idle hv _
    all_goals cases h
  | collect =>
    rw [hv] at h
    cases i
    case reserved => cases h; rfl
    case crcInit | crcAcc | setAddr | setCmd | setDlen | setBcnt =>
      cases h; exact whileIdle_of_collect hv _
    all_goals cases h

/-- A legal command is no writer of ECAUSE (R34). -/
theorem exec_ecause_of_legal {i : Instr} {s t : State}
    (hl : illegalInState i s.vst = none) (h : exec i s = .next t) : t.ecause = s.ecause := by
  cases hv : s.vst with
  | idle =>
    rw [hv] at hl
    cases i
    case reserved | vPush | vEnd => cases hl
    case crcInit | crcAcc | setAddr | setCmd | setDlen | setBcnt =>
      cases (whileIdle_of_idle hv _).symm.trans h; rfl
    all_goals cases h; rfl
  | collect =>
    rw [hv] at hl
    cases i
    case reserved | crcInit | crcAcc | setAddr | setCmd | setDlen | setBcnt => cases hl
    case vPush | vEnd => cases (whileOpen_of_collect hv _).symm.trans h; rfl
    all_goals cases h; rfl

/-! ## Legality of a word (R170) -/

theorem illegalCause_of_command {w : CmdWord} {i : Instr} (h : decode w = .command i)
    (s : State) : illegalCause w s = illegalInState i s.vst := by
  simp [illegalCause, h]

theorem illegalCause_of_illegal {w : CmdWord} {c : Cause} (h : decode w = .illegal c)
    (s : State) : illegalCause w s = some c := by
  simp [illegalCause, h]

/-- An illegal word, by its bits or in its state, has exactly the effect of R171. -/
theorem issue_of_illegalCause {w : CmdWord} {s : State} {c : Cause}
    (h : illegalCause w s = some c) : issue w s = .next (takeIllegal c s) := by
  cases hd : decode w with
  | command i =>
    rw [issue_of_command hd]
    exact exec_of_illegalInState (illegalCause_of_command hd s ▸ h)
  | illegal d =>
    cases (illegalCause_of_illegal hd s).symm.trans h
    exact issue_of_illegal hd s

/-- A word without an illegal cause is a command legal in the state. -/
theorem command_of_illegalCause_eq_none {w : CmdWord} {s : State}
    (h : illegalCause w s = none) :
    ∃ i, decode w = .command i ∧ illegalInState i s.vst = none := by
  cases hd : decode w with
  | command i => exact ⟨i, rfl, illegalCause_of_command hd s ▸ h⟩
  | illegal c => cases (illegalCause_of_illegal hd s).symm.trans h

theorem issue_ecause_of_legal {w : CmdWord} {s t : State} (hl : illegalCause w s = none)
    (h : issue w s = .next t) : t.ecause = s.ecause := by
  obtain ⟨i, hd, hi⟩ := command_of_illegalCause_eq_none hl
  exact exec_ecause_of_legal hi (issue_of_command hd s ▸ h)

/-! ## ECAUSE (R34) -/

theorem takeIllegal_ecause_of_ne_zero {s : State} (hs : s.ecause ≠ 0x00) (c : Cause) :
    (takeIllegal c s).ecause = s.ecause := by
  rw [takeIllegal_ecause, if_neg hs]

/-- No command word writes over the first cause. -/
theorem issue_ecause_of_ne_zero {w : CmdWord} {s t : State} (h : issue w s = .next t)
    (hs : s.ecause ≠ 0x00) : t.ecause = s.ecause := by
  cases hc : illegalCause w s with
  | none => exact issue_ecause_of_legal hc h
  | some c =>
    cases (issue_of_illegalCause hc).symm.trans h
    exact takeIllegal_ecause_of_ne_zero hs c

/-- Bit 7 of STATUS is ERR (R31). -/
theorem statusByte_getLsbD_seven (s : State) :
    (statusByte s).getLsbD 7 = true ↔ s.ecause ≠ 0x00 := by
  have hbit : (statusByte s).getLsbD 7 = (errBit s.ecause).getLsbD 0 := by simp [statusByte]
  rw [hbit, errBit]
  split
  · next h => simp [h]
  · next h => exact iff_of_true rfl h

/-- Settles O33: a word's effect on ECAUSE follows from its legality, a reset's from R38. -/
theorem ecauseIsStickyUntilReset : Obligations.EcauseIsStickyUntilReset := by
  refine ⟨fun w s t h => ?_, fun e s t h hs => ?_, fun s t h => ?_, statusByte_getLsbD_seven⟩
  · cases hc : illegalCause w s with
    | none => exact issue_ecause_of_legal hc h
    | some c =>
      cases (issue_of_illegalCause hc).symm.trans h
      exact takeIllegal_ecause c s
  · cases e with
    | command w => exact .inl (issue_ecause_of_ne_zero h hs)
    | reset => cases h; exact .inr ⟨applyReset_ecause s, rfl⟩
  · cases h; exact applyReset_ecause s

/-! ## Reset (R38) -/

/-- Settles O39: the fields of `State.reset` are R38's table. -/
theorem resetValues : Obligations.ResetValues := by
  unfold Obligations.ResetValues
  decide

end Sys2Proof.Proofs
end

section
/-! PROOFS of the statements on encoding (30_encoding.md): the order of the decode checks, the words
they refuse, and the expansions of the pseudo-instructions. -/

namespace Sys2Proof.Proofs

open Sys2Proof.Machine Sys2Proof.Safety Sys2Proof.Laws

/-! ## The opcode map (R61, R62) -/

theorem formOf_eq_noOperand_iff (op : BitVec 4) :
    formOf op = .noOperand ↔ op ∈ [0x4#4, 0x9#4, 0xB#4, 0xC#4, 0xD#4, 0xE#4, 0xF#4] := by
  revert op; decide

theorem formOf_eq_u7_iff (op : BitVec 4) : formOf op = .u7 ↔ op = 0x5 := by
  revert op; decide

/-- R62's commands in the order of their operation codes, from 0x1. -/
def commandRows (imm : Byte) : List Instr :=
  [.tblRd imm, .crcInit imm, .crcAcc imm, .crcRd, .setAddr (imm.extractLsb' 0 7), .setCmd imm,
    .setDlen imm, .setBcnt imm, .vBegin, .vPush imm, .vEnd, .rdStatus, .rdExp, .rdAct, .rdEcause]

theorem commandRows_getElem? {op : BitVec 4} (h : op ≠ 0x0) (imm : Byte) :
    (commandRows imm)[op.toNat - 1]? = some (commandOf op imm) := by
  obtain ⟨⟨n, hn⟩⟩ := op
  interval_cases n
  · exact absurd rfl h
  all_goals rfl

/-- Only the operation code 0x0 selects the reserved row. -/
theorem commandOf_ne_reserved {op : BitVec 4} (h : op ≠ 0x0) (imm : Byte) (low : BitVec 12) :
    commandOf op imm ≠ .reserved low := by
  obtain ⟨⟨n, hn⟩⟩ := op
  interval_cases n
  · exact absurd rfl h
  all_goals exact Instr.noConfusion

/-! ## What each decode check answers (R63) -/

section
variable {w : CmdWord}

theorem decode_of_opField_zero (h : opField w = 0x0) :
    decode w = .command (.reserved (lowField w)) :=
  if_pos h

variable (hop : opField w ≠ 0x0)
include hop

theorem decode_of_zField_ne_zero (hz : zField w ≠ 0x0) : decode w = .illegal .rsvdField := by
  rw [decode, if_neg hop, if_pos hz]

variable (hz : zField w = 0x0)
include hz

theorem decode_of_immField_ne_zero
    (hn : formOf (opField w) = .noOperand ∧ immField w ≠ 0x00) :
    decode w = .illegal .immNonzero := by
  rw [decode, if_neg hop, if_neg (not_not_intro hz), if_pos hn]

variable (hn : ¬(formOf (opField w) = .noOperand ∧ immField w ≠ 0x00))
include hn

theorem decode_of_address_bit_seven
    (ha : formOf (opField w) = .u7 ∧ (immField w).getLsbD 7 = true) :
    decode w = .illegal .addrRange := by
  rw [decode, if_neg hop, if_neg (not_not_intro hz), if_neg hn, if_pos ha]

theorem decode_of_checks_passed
    (ha : ¬(formOf (opField w) = .u7 ∧ (immField w).getLsbD 7 = true)) :
    decode w = .command (commandOf (opField w) (immField w)) := by
  rw [decode, if_neg hop, if_neg (not_not_intro hz), if_neg hn, if_neg ha]

end

/-- Settles O2: each branch of the chain is the decode check of that place. -/
theorem decodeChecksRunInOrder : Obligations.DecodeChecksRunInOrder := by
  intro op z imm s
  have hop := opField_append op z imm
  have hzf := zField_append op z imm
  have himm := immField_append op z imm
  simp only [← formOf_eq_noOperand_iff, ← formOf_eq_u7_iff]
  generalize (op ++ z) ++ imm = w at *
  subst hop hzf himm
  split_ifs with h0 hz hn ha
  · exact issue_of_command (decode_of_opField_zero h0) s
  · exact issue_of_illegal (decode_of_zField_ne_zero h0 hz) s
  · exact issue_of_illegal (decode_of_immField_ne_zero h0 (not_not.mp hz) hn) s
  · exact issue_of_illegal (decode_of_address_bit_seven h0 (not_not.mp hz) hn ha) s
  · rw [issue_of_command (decode_of_checks_passed h0 (not_not.mp hz) hn ha)]
    have hrow := commandRows_getElem? h0 (immField w)
    rw [commandRows] at hrow
    rw [hrow]

/-! ## The words that are illegal by their bits (R64) -/

/-- The word is refused whatever the state: its decoding is illegal, or it is of the reserved row,
whose meaning is cause 1 (log entry 5). -/
def IllegalByBits (w : CmdWord) : Prop :=
  (∃ low, decode w = .command (.reserved low)) ∨ ∃ c, decode w = .illegal c

/-- R64 by the fields: a word is illegal by its bits exactly when a decode check fails. -/
theorem illegalByBits_iff_fields (w : CmdWord) :
    IllegalByBits w ↔ opField w = 0x0 ∨ zField w ≠ 0x0 ∨
      (formOf (opField w) = .noOperand ∧ immField w ≠ 0x00) ∨
      (formOf (opField w) = .u7 ∧ (immField w).getLsbD 7 = true) := by
  by_cases h0 : opField w = 0x0
  · exact iff_of_true (.inl ⟨_, decode_of_opField_zero h0⟩) (.inl h0)
  by_cases hz : zField w = 0x0
  case neg => exact iff_of_true (.inr ⟨_, decode_of_zField_ne_zero h0 hz⟩) (.inr (.inl hz))
  by_cases hn : formOf (opField w) = .noOperand ∧ immField w ≠ 0x00
  · exact iff_of_true (.inr ⟨_, decode_of_immField_ne_zero h0 hz hn⟩) (.inr (.inr (.inl hn)))
  by_cases ha : formOf (opField w) = .u7 ∧ (immField w).getLsbD 7 = true
  · exact iff_of_true (.inr ⟨_, decode_of_address_bit_seven h0 hz hn ha⟩) (.inr (.inr (.inr ha)))
  refine iff_of_false ?_ (by simp only [h0, hz, hn, ha, ne_eq, not_true, or_self, not_false_eq_true])
  rintro (⟨low, h⟩ | ⟨c, h⟩)
  · exact commandOf_ne_reserved h0 _ low
      (Decoded.command.inj ((decode_of_checks_passed h0 hz hn ha).symm.trans h))
  · cases (decode_of_checks_passed h0 hz hn ha).symm.trans h

/-- The number of a word with Z = 0. -/
theorem toNat_of_zField_zero {w : CmdWord} (hz : zField w = 0x0) :
    w.toNat = (opField w).toNat * 4096 + (immField w).toNat := by
  conv_lhs => rw [eq_append_fields w, hz, toNat_fields]
  simp

theorem opField_eq_zero_iff (w : CmdWord) : opField w = 0x0 ↔ w.toNat < 4096 := by
  have h := toNat_fields (opField w) (zField w) (immField w)
  rw [← eq_append_fields w] at h
  have := (zField w).isLt
  have := (immField w).isLt
  rw [← BitVec.toNat_inj]
  change (opField w).toNat = 0 ↔ _
  omega

/-- The mask 0xFF00 keeps OP and Z. -/
theorem and_FF00 (w : CmdWord) : w &&& 0xFF00#16 = (opField w ++ zField w) ++ 0x00#8 := by
  calc w &&& 0xFF00#16
      = ((opField w ++ zField w) ++ immField w) &&&
          ((BitVec.allOnes 4 ++ BitVec.allOnes 4) ++ 0x00#8) := by
        rw [← eq_append_fields w]; rfl
    _ = (opField w ++ zField w) ++ 0x00#8 := by
        simp only [BitVec.and_append, BitVec.and_allOnes, BitVec.and_zero]

/-- The mask 0x00FF keeps IMM. -/
theorem and_00FF (w : CmdWord) : w &&& 0x00FF#16 = (0x0#4 ++ 0x0#4) ++ immField w := by
  calc w &&& 0x00FF#16
      = ((opField w ++ zField w) ++ immField w) &&& ((0x0#4 ++ 0x0#4) ++ BitVec.allOnes 8) := by
        rw [← eq_append_fields w]; rfl
    _ = (0x0#4 ++ 0x0#4) ++ immField w := by
        simp only [BitVec.and_append, BitVec.and_allOnes, BitVec.and_zero]

theorem and_FF00_mem_iff {w : CmdWord} (hz : zField w = 0x0) :
    w &&& 0xFF00#16 ∈ [0x4000#16, 0x9000#16, 0xB000#16, 0xC000#16, 0xD000#16, 0xE000#16, 0xF000#16]
      ↔ formOf (opField w) = .noOperand := by
  rw [and_FF00, hz]
  generalize opField w = op
  revert op
  decide

theorem and_00FF_eq_zero_iff (w : CmdWord) : w &&& 0x00FF#16 = 0 ↔ immField w = 0x00 := by
  rw [and_00FF, ← BitVec.toNat_inj, toNat_fields, ← BitVec.toNat_inj]
  simp

/-- IMM[7] of a byte, by its value. -/
theorem getLsbD_seven_iff (b : Byte) : b.getLsbD 7 = true ↔ 128 ≤ b.toNat := by
  revert b; decide

theorem addrRange_iff {w : CmdWord} (hz : zField w = 0x0) :
    (0x5080 ≤ w.toNat ∧ w.toNat ≤ 0x50FF) ↔
      formOf (opField w) = .u7 ∧ (immField w).getLsbD 7 = true := by
  rw [formOf_eq_u7_iff, getLsbD_seven_iff, toNat_of_zField_zero hz, ← BitVec.toNat_inj]
  have := (immField w).isLt
  change _ ↔ _ = 5 ∧ _
  omega

theorem whileIdle_answers (s e : State) : ∃ t, whileIdle s e = .next t := by
  cases hv : s.vst with
  | idle => exact ⟨_, whileIdle_of_idle hv e⟩
  | collect => exact ⟨_, whileIdle_of_collect hv e⟩

theorem whileOpen_answers (s e : State) : ∃ t, whileOpen s e = .next t := by
  cases hv : s.vst with
  | idle => exact ⟨_, whileOpen_of_idle hv e⟩
  | collect => exact ⟨_, whileOpen_of_collect hv e⟩

/-- Every command answers a next state, whatever the state. -/
theorem exec_answers (i : Instr) (s : State) : ∃ t, exec i s = .next t := by
  cases i
  case crcInit | crcAcc | setAddr | setCmd | setDlen | setBcnt => exact whileIdle_answers s _
  case vPush | vEnd => exact whileOpen_answers s _
  all_goals exact ⟨_, rfl⟩

/-- A word illegal by its bits has the effect of R171 in every state. -/
theorem issue_of_illegalByBits {w : CmdWord} (h : IllegalByBits w) (s : State) :
    ∃ c, issue w s = .next (takeIllegal c s) := by
  obtain ⟨low, h⟩ | ⟨c, h⟩ := h
  · exact ⟨.rsvdOp, issue_of_command h s⟩
  · exact ⟨c, issue_of_illegal h s⟩

/-- R64, (a) to (d), as the spec lists the words. -/
theorem illegalByBits_iff_listed (w : CmdWord) :
    IllegalByBits w ↔
      (w.toNat < 4096 ∨ w.extractLsb' 8 4 ≠ 0 ∨
        (w &&& 0xFF00#16 ∈ [0x4000#16, 0x9000#16, 0xB000#16, 0xC000#16, 0xD000#16, 0xE000#16,
          0xF000#16] ∧ w &&& 0x00FF#16 ≠ 0) ∨
        (0x5080 ≤ w.toNat ∧ w.toNat ≤ 0x50FF)) := by
  rw [illegalByBits_iff_fields, opField_eq_zero_iff]
  refine or_congr_right (or_congr_right' fun hz => ?_)
  have hz := not_not.mp hz
  rw [and_FF00_mem_iff hz, addrRange_iff hz, ne_eq, ne_eq, and_00FF_eq_zero_iff]

/-- Settles O3: R64's list is the failing decode checks, and any other word decodes to a command,
which answers a next state. -/
theorem illegalWordsAreExactlyTheListed : Obligations.IllegalWordsAreExactlyTheListed := by
  refine fun w s => ⟨illegalByBits_iff_listed w, fun h => issue_of_illegalByBits h s, fun h => ?_⟩
  cases hd : decode w with
  | illegal c => exact absurd ⟨c, hd⟩ h
  | command i =>
    obtain ⟨t, ht⟩ := exec_answers i s
    exact ⟨i, t, rfl, issue_of_command hd s, ht⟩

/-! ## The assembler (R66, R67) -/

@[simp] theorem fitsU8_toNat (b : Byte) : fitsU8 b.toNat = true := decide_eq_true b.isLt

@[simp] theorem fitsU7_toNat (a : Addr7) : fitsU7 a.toNat = true := decide_eq_true a.isLt

@[simp] theorem u8_toNat (b : Byte) : u8 b.toNat = b := BitVec.ofNat_toNat ..

@[simp] theorem u7_toNat (a : Addr7) : u7 a.toNat = a := BitVec.ofNat_toNat ..

theorem all_fitsU8_map_toNat (bs : List Byte) : (bs.map BitVec.toNat).all fitsU8 = true := by
  simp

theorem assemble_eq_some {l : SourceLine} {ws : List CmdWord} (hfit : l.wellFormed = true)
    (hws : (expandLine l).map encode = ws) : assemble l = some ws :=
  hws ▸ if_pos hfit

theorem map_encode_crcAcc (bs : List Byte) :
    ((bs.map BitVec.toNat).map fun b => .crcAcc (u8 b)).map encode =
      bs.map fun b => encode (.crcAcc b) := by
  simp

theorem map_encode_expandSetup (a : Addr7) (c d n : Byte) :
    (expandSetup a.toNat c.toNat d.toNat n.toNat).map encode = setupWords a c d n := by
  simp [expandSetup, setupWords]

theorem map_encode_expandFrame (rs : List Byte) :
    (expandFrame (rs.map BitVec.toNat)).map encode = frameWords rs := by
  simp [expandFrame, frameWords]

/-- Settles O6: on operands that are bytes and addresses each line is well-formed, and `expandLine`
is R67's table. -/
theorem pseudoInstructionsExpandExactly : Obligations.PseudoInstructionsExpandExactly := by
  refine ⟨rfl, fun b bs => ?_, fun a c d n => ?_, fun r rs => ?_, fun a c d n r rs => ?_⟩
  · exact assemble_eq_some (all_fitsU8_map_toNat (b :: bs)) (map_encode_crcAcc (b :: bs))
  · exact assemble_eq_some
      (Bool.and_eq_true_iff.mpr ⟨fitsU7_toNat a, all_fitsU8_map_toNat [c, d, n]⟩)
      (map_encode_expandSetup a c d n)
  · exact assemble_eq_some (all_fitsU8_map_toNat (r :: rs)) (map_encode_expandFrame (r :: rs))
  · exact assemble_eq_some
      (Bool.and_eq_true_iff.mpr ⟨fitsU7_toNat a, all_fitsU8_map_toNat (c :: d :: n :: r :: rs)⟩)
      (List.map_append.trans
        (congrArg₂ _ (map_encode_expandSetup a c d n) (map_encode_expandFrame (r :: rs))))

end Sys2Proof.Proofs
end

section
/-! PROOFS of the statements on the table generator (40_table_generator.md): the decoding of the u8
form, and TBL_RD. -/

namespace Sys2Proof.Proofs

open Sys2Proof.Machine Sys2Proof.Safety Sys2Proof.Laws

/-! ## The u8 form of the opcode table (R61, R62) -/

/-- A row's match value has Z and IMM zero. -/
theorem append_zero_twelve (op : BitVec 4) : op ++ 0x000#12 = (op ++ 0x0#4) ++ 0x00#8 := by
  revert op; decide

/-- R62's test `word AND mask = match` of the u8 form, by the fields. -/
theorem and_FF00_eq_match_iff (w : CmdWord) (op : BitVec 4) :
    w &&& 0xFF00#16 = op ++ 0x000#12 ↔ opField w = op ∧ zField w = 0x0#4 := by
  rw [and_FF00, append_zero_twelve]
  constructor
  · intro h
    exact ⟨by simpa only [opField_append] using congrArg opField h,
      by simpa only [zField_append] using congrArg zField h⟩
  · rintro ⟨rfl, hz⟩
    rw [hz]

/-- IMM is the word cut to its low byte. -/
theorem immField_eq_setWidth (w : CmdWord) : immField w = w.setWidth 8 :=
  (BitVec.setWidth_eq_extractLsb' (by decide)).symm

/-- Check 2 of R63 on a word given by its fields. -/
theorem decode_append_of_z_ne_zero {op z : BitVec 4} (hop : op ≠ 0x0) (hz : z ≠ 0x0)
    (imm : Byte) : decode ((op ++ z) ++ imm) = .illegal .rsvdField :=
  decode_of_zField_ne_zero (by rwa [opField_append]) (by rwa [zField_append])

/-- A row of the u8 form decodes to its command with the whole IMM, and refuses a nonzero Z. -/
theorem decodesU8_of_row {op : BitVec 4} {mk : Byte → Instr} (hop : op ≠ 0x0)
    (hform : formOf op = .u8) (hrow : ∀ imm, commandOf op imm = mk imm) : DecodesU8 op mk := by
  refine ⟨fun w hw => ?_, fun z imm hz => decode_append_of_z_ne_zero hop hz imm⟩
  obtain ⟨rfl, hz⟩ := (and_FF00_eq_match_iff w op).mp hw
  have hn : ¬(formOf (opField w) = .noOperand ∧ immField w ≠ 0x00) := by simp [hform]
  have ha : ¬(formOf (opField w) = .u7 ∧ (immField w).getLsbD 7 = true) := by simp [hform]
  rw [decode_of_checks_passed hop hz hn ha, hrow, immField_eq_setWidth]

/-! ## TBL_RD (R82) -/

theorem decodesU8_tblRd : DecodesU8 0x1 .tblRd :=
  decodesU8_of_row (by decide) rfl fun _ => rfl

/-- The whole effect of TBL_RD, in either validator state. -/
theorem exec_tblRd (idx : Byte) (s : State) :
    exec (.tblRd idx) s = .next { s with rdata := genTable idx } := by
  rw [← tableRead_eq_genTable]
  rfl

/-- Settles O13: TBL_RD's row is of the u8 form, and its response is the ROM's entry, which is
`GenTable` of the index (R81). -/
theorem tblRdAnswersTableEntry : Obligations.TblRdAnswersTableEntry := by
  refine ⟨decodesU8_tblRd, exec_tblRd, by decide, by decide, fun s => ?_⟩
  have hdecode : decode 0x1001 = .command (.tblRd 0x01) := decodesU8_tblRd.1 0x1001 rfl
  have hentry : genTable 0x01 = 0x07 := by decide
  rw [issue_of_command hdecode, exec_tblRd, hentry]

end Sys2Proof.Proofs
end

section
/-! PROOFS of the statements on the accumulator (41_accumulator.md): CRC_INIT and CRC_ACC. -/

namespace Sys2Proof.Proofs

open Sys2Proof.Machine Sys2Proof.Safety Sys2Proof.Laws

/-! ## CRC_INIT (R104) -/

theorem decodesU8_crcInit : DecodesU8 0x2 .crcInit :=
  decodesU8_of_row (by decide) rfl fun _ => rfl

/-- The whole effect of CRC_INIT outside a validation. -/
theorem exec_crcInit_of_idle (v : Byte) {s : State} (hs : s.vst = .idle) :
    exec (.crcInit v) s = .next { s with crc := v, rdata := v } :=
  whileIdle_of_idle hs _

/-- An open validation's CRC is protected from CRC_INIT (R173). -/
theorem exec_crcInit_of_collect (v : Byte) {s : State} (hs : s.vst = .collect) :
    exec (.crcInit v) s = .next (takeIllegal .busy s) :=
  whileIdle_of_collect hs _

/-- Settles O14: CRC_INIT's row is of the u8 form, and the check of R173 guards its effect. -/
theorem crcInitSeedsAccumulator : Obligations.CrcInitSeedsAccumulator := by
  refine ⟨decodesU8_crcInit, fun v s hs => exec_crcInit_of_idle v hs,
    fun v s hs => exec_crcInit_of_collect v hs, fun s hs => ?_⟩
  have hdecode : decode 0x2000 = .command (.crcInit 0x00) := decodesU8_crcInit.1 0x2000 rfl
  rw [issue_of_command hdecode, exec_crcInit_of_idle 0x00 hs]

/-! ## CRC_ACC (R105) -/

/-- The accumulation step is `GenTable` of the index `CRC XOR b` (R81, R105). -/
theorem foldByte_eq_genTable (s : State) (b : Byte) : foldByte s b = genTable (s.crc ^^^ b) :=
  tableRead_eq_genTable _

theorem decodesU8_crcAcc : DecodesU8 0x3 .crcAcc :=
  decodesU8_of_row (by decide) rfl fun _ => rfl

/-- The whole effect of CRC_ACC outside a validation. -/
theorem exec_crcAcc_of_idle (b : Byte) {s : State} (hs : s.vst = .idle) :
    exec (.crcAcc b) s =
      .next { s with crc := genTable (s.crc ^^^ b), rdata := genTable (s.crc ^^^ b) } := by
  rw [← foldByte_eq_genTable]
  exact whileIdle_of_idle hs _

/-- An open validation's CRC is protected from CRC_ACC (R173). -/
theorem exec_crcAcc_of_collect (b : Byte) {s : State} (hs : s.vst = .collect) :
    exec (.crcAcc b) s = .next (takeIllegal .busy s) :=
  whileIdle_of_collect hs _

theorem genTable_zero : genTable 0x00 = 0x00 := by decide

theorem genTable_FF : genTable 0xFF = 0xF3 := by decide

/-- R105's corner cases: a byte equal to CRC, or the pair 0x00 and 0x00, indexes the first table
entry; the pair 0xFF and 0x00, either way round, indexes the last. -/
theorem genTable_xor_corners (c b : Byte) :
    (b = c → genTable (c ^^^ b) = 0x00) ∧ (c = 0x00 ∧ b = 0x00 → genTable (c ^^^ b) = 0x00) ∧
    (c = 0xFF ∧ b = 0x00 → genTable (c ^^^ b) = 0xF3) ∧
    (c = 0x00 ∧ b = 0xFF → genTable (c ^^^ b) = 0xF3) := by
  refine ⟨?_, ?_, ?_, ?_⟩
  · rintro rfl
    rw [BitVec.xor_self]
    exact genTable_zero
  · rintro ⟨rfl, rfl⟩
    exact genTable_zero
  · rintro ⟨rfl, rfl⟩
    exact genTable_FF
  · rintro ⟨rfl, rfl⟩
    exact genTable_FF

/-- Settles O15: CRC_ACC's row is of the u8 form, the check of R173 guards its effect, and its
corner cases are those of the table read at `CRC XOR b`. -/
theorem crcAccFoldsOneByte : Obligations.CrcAccFoldsOneByte := by
  refine ⟨decodesU8_crcAcc, fun b s hs => exec_crcAcc_of_idle b hs,
    fun b s hs => exec_crcAcc_of_collect b hs, fun b s t hs ht => ?_, fun s hs hcrc => ?_⟩
  · cases (exec_crcAcc_of_idle b hs).symm.trans ht
    exact genTable_xor_corners s.crc b
  · have hdecode : decode 0x3031 = .command (.crcAcc 0x31) := decodesU8_crcAcc.1 0x3031 rfl
    have hentry : genTable (0x00 ^^^ 0x31) = 0x97 := by decide
    rw [issue_of_command hdecode, exec_crcAcc_of_idle 0x31 hs, hcrc, hentry]

end Sys2Proof.Proofs
end

section
/-! PROOFS of the statements on the frame builder and the validator as pure functions, and on the
validator's state machine (42_frame_validator.md R120 to R127, R153). -/

namespace Sys2Proof.Proofs

open Sys2Proof.Machine Sys2Proof.Safety Sys2Proof.Laws

/-! ## When each result of Validate holds (R124 to R127) -/

/-- The byte counts that are refused (R124). -/
theorem badByteCount_eq_true_iff (n : Byte) :
    badByteCount n = true ↔ n.toNat = 0 ∨ 8 < n.toNat := by
  rw [badByteCount, Bool.or_eq_true, decide_eq_true_iff, decide_eq_true_iff, ← BitVec.toNat_inj,
    BitVec.lt_def]
  rfl

/-- The byte counts that validate (R124). -/
theorem badByteCount_eq_false_iff (n : Byte) :
    badByteCount n = false ↔ 1 ≤ n.toNat ∧ n.toNat ≤ 8 := by
  rw [← Bool.not_eq_true, badByteCount_eq_true_iff]
  omega

/-- Past the byte count's check, no response of at least two bytes is refused (R127): it is compared
with its own last byte. -/
theorem validate_of_long {n : Byte} (hb : badByteCount n = false) {r : List Byte}
    (hr : 2 ≤ r.length) (a : Addr7) (c d : Byte) :
    validate a c d n r =
      if accumulate pecSeed (headerBytes a c d n ++ r.dropLast) = r.getLastD 0x00 then .valid
      else
        .mismatch (accumulate pecSeed (headerBytes a c d n ++ r.dropLast)) (r.getLastD 0x00) := by
  split
  · next he => exact validate_of_equal hb hr he
  · next he => exact validate_of_differ hb hr he

theorem validate_eq_invalidLength_iff (a : Addr7) (c d n : Byte) (r : List Byte) :
    validate a c d n r = .invalidLength ↔ badByteCount n = true := by
  cases hb : badByteCount n with
  | true => exact iff_of_true (validate_of_bad hb a c d r) rfl
  | false =>
    refine iff_of_false ?_ Bool.false_ne_true
    obtain hr | hr := Nat.lt_or_ge r.length 2
    · rw [validate_of_short hb hr]; exact Verdict.noConfusion
    · rw [validate_of_long hb hr]; split <;> exact Verdict.noConfusion

theorem validate_eq_emptyResponse_iff (a : Addr7) (c d n : Byte) (r : List Byte) :
    validate a c d n r = .emptyResponse ↔ badByteCount n = false ∧ r.length < 2 := by
  cases hb : badByteCount n with
  | true =>
    refine iff_of_false ?_ fun h => Bool.noConfusion h.1
    rw [validate_of_bad hb]; exact Verdict.noConfusion
  | false =>
    obtain hr | hr := Nat.lt_or_ge r.length 2
    · exact iff_of_true (validate_of_short hb hr a c d) ⟨rfl, hr⟩
    · refine iff_of_false ?_ fun h => Nat.not_lt.mpr hr h.2
      rw [validate_of_long hb hr]; split <;> exact Verdict.noConfusion

theorem validate_eq_valid_iff_of_long {n : Byte} (hb : badByteCount n = false) {r : List Byte}
    (hr : 2 ≤ r.length) (a : Addr7) (c d : Byte) :
    validate a c d n r = .valid ↔
      accumulate pecSeed (headerBytes a c d n ++ r.dropLast) = r.getLastD 0x00 := by
  rw [validate_of_long hb hr]
  split
  · next he => exact iff_of_true rfl he
  · next he => exact iff_of_false Verdict.noConfusion he

/-- Settles O11: the byte count's check comes first (R126), then the response's length, and the rest
is one comparison. -/
theorem validateFailureConditions : Obligations.ValidateFailureConditions := by
  intro a c d n r
  rw [← badByteCount_eq_true_iff, ← badByteCount_eq_false_iff]
  refine ⟨validate_eq_invalidLength_iff a c d n r, (buildFrame_eq_none_iff a c d n r).mpr,
    validate_eq_emptyResponse_iff a c d n r, fun hb x y ys hxy => ?_⟩
  have hr : 2 ≤ r.length := by simp [hxy]
  refine ⟨_, buildFrame_of_good hb a c d r, ?_, validate_eq_valid_iff_of_long hb hr a c d⟩
  rw [validate_of_long hb hr]
  exact ite_eq_or_eq ..

/-! ## The bytes of the frame (R120, R122) -/

theorem writeAddrByte_toNat (a : Addr7) : (writeAddrByte a).toNat = 2 * a.toNat := by
  revert a; decide

theorem readAddrByte_toNat (a : Addr7) : (readAddrByte a).toNat = 2 * a.toNat + 1 := by
  revert a; decide

theorem writeAddrByte_eq_ofNat (a : Addr7) : writeAddrByte a = BitVec.ofNat 8 (2 * a.toNat) := by
  rw [← writeAddrByte_toNat, BitVec.ofNat_toNat, BitVec.setWidth_eq]

theorem readAddrByte_eq_ofNat (a : Addr7) :
    readAddrByte a = BitVec.ofNat 8 (2 * a.toNat + 1) := by
  rw [← readAddrByte_toNat, BitVec.ofNat_toNat, BitVec.setWidth_eq]

/-- Bit 0 of a byte, by its value. -/
theorem getLsbD_zero_eq_mod_two (b : Byte) : b.getLsbD 0 = decide (b.toNat % 2 = 1) := by
  simp [BitVec.getLsbD, Nat.testBit_zero]

theorem headerBytes_eq_ofNat (a : Addr7) (c d n : Byte) :
    headerBytes a c d n =
      [BitVec.ofNat 8 (2 * a.toNat), c, d, n, BitVec.ofNat 8 (2 * a.toNat + 1)] := by
  rw [headerBytes, writeAddrByte_eq_ofNat, readAddrByte_eq_ofNat]

/-- Settles O10: the address bytes are `2a` and `2a + 1`, and the byte count's check is R124's. -/
theorem frameBytesInOrder : Obligations.FrameBytesInOrder := by
  refine ⟨fun a c d n r => ?_, fun a => ?_, by decide⟩
  · rw [buildFrame, headerBytes_eq_ofNat]
    exact if_congr (badByteCount_eq_true_iff n) rfl rfl
  · rw [getLsbD_zero_eq_mod_two, getLsbD_zero_eq_mod_two, writeAddrByte_toNat, readAddrByte_toNat,
      decide_eq_false_iff_not, decide_eq_true_iff]
    omega

/-! ## The validator's state machine (R153) -/

/-- The arrows of R153's table. -/
def vstAfter (i : Instr) (v : Vst) : Vst :=
  match i with
  | .vBegin => .collect
  | .vEnd => .idle
  | _ => v

/-- V_BEGIN opens a validation and V_END closes it; a V_END that is illegal finds none open. -/
theorem exec_vst {i : Instr} {s t : State} (h : exec i s = .next t) :
    t.vst = vstAfter i s.vst := by
  cases i
  case crcInit | crcAcc | setAddr | setCmd | setDlen | setBcnt =>
    obtain ⟨-, rfl⟩ | ⟨-, rfl⟩ := whileIdle_cases h <;> rfl
  case vPush => obtain ⟨-, rfl⟩ | ⟨-, rfl⟩ := whileOpen_cases h <;> rfl
  case vEnd =>
    obtain ⟨-, rfl⟩ | ⟨hidle, rfl⟩ := whileOpen_cases h
    · rfl
    · exact hidle
  all_goals cases h; rfl

/-- The cause recorded when none was: the command's cause in its state, if it has one. -/
theorem exec_ecause_of_eq_zero {i : Instr} {s t : State} (hs : s.ecause = 0x00)
    (h : exec i s = .next t) :
    t.ecause = (illegalInState i s.vst).elim 0x00 causeCode := by
  cases hc : illegalInState i s.vst with
  | none => exact (exec_ecause_of_legal hc h).trans hs
  | some c =>
    cases (exec_of_illegalInState hc).symm.trans h
    exact if_pos hs

/-- Settles O34: VST by the commands' effects, the causes by the legality of each command in each
state. -/
theorem validatorStateMachine : Obligations.ValidatorStateMachine := by
  refine ⟨fun i s t h => (exec_vst h).trans ?_, fun w c s t hd h => ?_, fun i s t hs h => ?_⟩
  · cases i <;> rfl
  · cases (issue_of_illegal hd s).symm.trans h
    exact takeIllegal_vst c s
  · rw [exec_ecause_of_eq_zero hs h]
    cases i <;> cases s.vst <;> rfl

end Sys2Proof.Proofs
end

section
/-! PROOFS of the statements on the frame's parameters: SET_ADDR, SET_CMD, SET_DLEN and SET_BCNT
(42_frame_validator.md R140 to R143), with the decoding of the u7 form and what V_END reports of an
out-of-range byte count. -/

namespace Sys2Proof.Proofs

open Sys2Proof.Machine Sys2Proof.Safety Sys2Proof.Laws

/-! ## SET_ADDR (R140) and its u7 form (R61, R62) -/

/-- The mask 0xFF80 keeps OP, Z and IMM[7]. -/
theorem and_FF80 (w : CmdWord) :
    w &&& 0xFF80 = (opField w ++ zField w) ++ (immField w &&& 0x80#8) := by
  calc w &&& 0xFF80
      = ((opField w ++ zField w) ++ immField w) &&&
          ((BitVec.allOnes 4 ++ BitVec.allOnes 4) ++ 0x80#8) := by
        rw [← eq_append_fields w]; rfl
    _ = (opField w ++ zField w) ++ (immField w &&& 0x80#8) := by
        simp only [BitVec.and_append, BitVec.and_allOnes]

theorem and_80_eq_zero_iff (b : Byte) : b &&& 0x80#8 = 0x00#8 ↔ b.getLsbD 7 = false := by
  revert b; decide

/-- R62's test `word AND mask = match` of the u7 form, by the fields. -/
theorem and_FF80_eq_match_iff (w : CmdWord) (op : BitVec 4) :
    w &&& 0xFF80 = op ++ 0x000#12 ↔
      opField w = op ∧ zField w = 0x0#4 ∧ (immField w).getLsbD 7 = false := by
  rw [and_FF80, append_zero_twelve, ← and_80_eq_zero_iff]
  constructor
  · intro h
    exact ⟨by simpa only [opField_append] using congrArg opField h,
      by simpa only [zField_append] using congrArg zField h,
      by simpa only [immField_append] using congrArg immField h⟩
  · rintro ⟨rfl, hz, himm⟩
    rw [hz, himm]

/-- The u7 operand is the word cut to its low seven bits. -/
theorem addrOf_immField (w : CmdWord) : addrOf (immField w) = w.setWidth 7 := by
  rw [addrOf, ← BitVec.setWidth_eq_extractLsb' (by decide), immField_eq_setWidth,
    BitVec.setWidth_setWidth_of_le w (by decide)]

theorem decode_setAddr {w : CmdWord} (hw : w &&& 0xFF80 = 0x5000) :
    decode w = .command (.setAddr (w.setWidth 7)) := by
  obtain ⟨hop, hz, himm⟩ := (and_FF80_eq_match_iff w 0x5#4).mp hw
  have h0 : opField w ≠ 0x0 := by rw [hop]; decide
  have hn : ¬(formOf (opField w) = .noOperand ∧ immField w ≠ 0x00) := by
    rw [hop]; exact fun h => OperandForm.noConfusion h.1
  have ha : ¬(formOf (opField w) = .u7 ∧ (immField w).getLsbD 7 = true) :=
    fun h => Bool.eq_false_iff.mp himm h.2
  rw [decode_of_checks_passed h0 hz hn ha, hop, ← addrOf_immField]
  rfl

/-- Check 4 of R63 on a word given by its fields. -/
theorem decode_setAddr_of_bit_seven {imm : Byte} (himm : imm.getLsbD 7 = true) :
    decode ((0x5#4 ++ 0x0#4) ++ imm) = .illegal .addrRange :=
  decode_of_address_bit_seven (by rw [opField_append]; decide) (zField_append ..)
    (by rw [opField_append]; exact fun h => OperandForm.noConfusion h.1)
    (by rw [opField_append, immField_append]; exact ⟨rfl, himm⟩)

theorem exec_setAddr_of_idle (a : Addr7) {s : State} (hs : s.vst = .idle) :
    exec (.setAddr a) s = .next { s with daddr := a, rdata := a.setWidth 8 } :=
  whileIdle_of_idle hs _

/-- Settles O18: SET_ADDR's row is of the u7 form, and the check of R173 guards its effect. -/
theorem setAddrStoresAddress : Obligations.SetAddrStoresAddress := by
  refine ⟨fun w hw => decode_setAddr hw,
    fun z imm hz => decode_append_of_z_ne_zero (by decide) hz imm,
    fun imm himm => decode_setAddr_of_bit_seven himm, fun a s hs => exec_setAddr_of_idle a hs,
    fun a s hs => whileIdle_of_collect hs _, fun s hs => ?_⟩
  have hdecode : decode 0x5040 = .command (.setAddr 0x40) := decode_setAddr rfl
  rw [issue_of_command hdecode, exec_setAddr_of_idle 0x40 hs]
  rfl

/-! ## SET_CMD (R141) -/

theorem decodesU8_setCmd : DecodesU8 0x6 .setCmd :=
  decodesU8_of_row (by decide) rfl fun _ => rfl

theorem exec_setCmd_of_idle (c : Byte) {s : State} (hs : s.vst = .idle) :
    exec (.setCmd c) s = .next { s with cmd := c, rdata := c } :=
  whileIdle_of_idle hs _

/-- Settles O19: SET_CMD's row is of the u8 form, and the check of R173 guards its effect. -/
theorem setCmdStoresCommandCode : Obligations.SetCmdStoresCommandCode := by
  refine ⟨decodesU8_setCmd, fun c s hs => exec_setCmd_of_idle c hs,
    fun c s hs => whileIdle_of_collect hs _, fun s hs => ?_⟩
  have hdecode : decode 0x609B = .command (.setCmd 0x9B) := decodesU8_setCmd.1 0x609B rfl
  rw [issue_of_command hdecode, exec_setCmd_of_idle 0x9B hs]

/-! ## SET_DLEN (R142) -/

theorem decodesU8_setDlen : DecodesU8 0x7 .setDlen :=
  decodesU8_of_row (by decide) rfl fun _ => rfl

theorem exec_setDlen_of_idle (d : Byte) {s : State} (hs : s.vst = .idle) :
    exec (.setDlen d) s = .next { s with dlen := d, rdata := d } :=
  whileIdle_of_idle hs _

/-- Settles O20: SET_DLEN's row is of the u8 form, the check of R173 guards its effect, and R38
gives DLEN's reset value. -/
theorem setDlenStoresDeclaredLength : Obligations.SetDlenStoresDeclaredLength := by
  obtain ⟨-, -, -, hreset, -⟩ := resetValues
  refine ⟨decodesU8_setDlen, fun d s hs => exec_setDlen_of_idle d hs,
    fun d s hs => whileIdle_of_collect hs _, hreset, fun s hs => ?_⟩
  have hdecode : decode 0x7001 = .command (.setDlen 0x01) := decodesU8_setDlen.1 0x7001 rfl
  rw [issue_of_command hdecode, exec_setDlen_of_idle 0x01 hs]

/-! ## SET_BCNT (R143) -/

theorem decodesU8_setBcnt : DecodesU8 0x8 .setBcnt :=
  decodesU8_of_row (by decide) rfl fun _ => rfl

theorem exec_setBcnt_of_idle (n : Byte) {s : State} (hs : s.vst = .idle) :
    exec (.setBcnt n) s = .next { s with bcnt := n, rdata := n } :=
  whileIdle_of_idle hs _

/-- The V_END of an open validation closes it and answers the STATUS that results (R146). -/
theorem exec_vEnd_of_collect {s : State} (hs : s.vst = .collect) :
    exec .vEnd s = .next (respond (statusByte (closeValidation s)) (closeValidation s)) :=
  whileOpen_of_collect hs _

/-- A byte count that SET_BCNT stored out of range is reported by V_END (R124, R143). -/
theorem exec_vEnd_code_of_bad {s : State} (hs : s.vst = .collect)
    (hb : badByteCount s.bcnt = true) :
    ∃ t, exec .vEnd s = .next t ∧ t.code = codeInvalidLength :=
  ⟨_, exec_vEnd_of_collect hs, resultCode_of_bad hb⟩

/-- Settles O21: SET_BCNT's row is of the u8 form, the check of R173 guards its effect, and a bad
byte count is V_END's to report. -/
theorem setBcntStoresAnyByteCount : Obligations.SetBcntStoresAnyByteCount := by
  refine ⟨decodesU8_setBcnt, fun n s hs => exec_setBcnt_of_idle n hs,
    fun n s hs => whileIdle_of_collect hs _,
    fun s hs hb => exec_vEnd_code_of_bad hs ((badByteCount_eq_true_iff s.bcnt).mpr hb),
    fun s hs => ?_⟩
  have hdecode : decode 0x8008 = .command (.setBcnt 0x08) := decodesU8_setBcnt.1 0x8008 rfl
  rw [issue_of_command hdecode, exec_setBcnt_of_idle 0x08 hs]

end Sys2Proof.Proofs
end

section
/-! PROOFS. Runs of words by their transactions: what the host does next is read by no command, so
a run goes on, word by word, from the state each transaction answers. -/

namespace Sys2Proof.Proofs

open Sys2Proof.Machine Sys2Proof.Safety Sys2Proof.Laws

/-! ## What the host does next is read and written by no command (R21) -/

theorem whileIdle_with_inputs {s e t : State} (h : whileIdle s e = .next t) (l : List Input) :
    whileIdle { s with inputs := l } { e with inputs := l } = .next { t with inputs := l } := by
  obtain ⟨hs, rfl⟩ | ⟨hs, rfl⟩ := whileIdle_cases h
  · exact whileIdle_of_idle (s := { s with inputs := l }) hs _
  · exact whileIdle_of_collect (s := { s with inputs := l }) hs _

theorem whileOpen_with_inputs {s e t : State} (h : whileOpen s e = .next t) (l : List Input) :
    whileOpen { s with inputs := l } { e with inputs := l } = .next { t with inputs := l } := by
  obtain ⟨hs, rfl⟩ | ⟨hs, rfl⟩ := whileOpen_cases h
  · exact whileOpen_of_collect (s := { s with inputs := l }) hs _
  · exact whileOpen_of_idle (s := { s with inputs := l }) hs _

theorem exec_with_inputs {i : Instr} {s t : State} (h : exec i s = .next t) (l : List Input) :
    exec i { s with inputs := l } = .next { t with inputs := l } := by
  cases i
  case crcInit | crcAcc | setAddr | setCmd | setDlen | setBcnt => exact whileIdle_with_inputs h l
  case vPush | vEnd => exact whileOpen_with_inputs h l
  all_goals cases h; rfl

theorem issue_with_inputs {w : CmdWord} {s t : State} (h : issue w s = .next t)
    (l : List Input) : issue w { s with inputs := l } = .next { t with inputs := l } := by
  cases hd : decode w with
  | command i =>
    rw [issue_of_command hd] at h ⊢
    exact exec_with_inputs h l
  | illegal c =>
    cases (issue_of_illegal hd s).symm.trans h
    exact issue_of_illegal hd _

/-! ## Runs (R197) -/

/-- A run goes on from what its first word's transaction answers. -/
theorem runWords_cons_of_issue {w : CmdWord} {s t : State} (h : issue w s = .next t)
    (ws : List CmdWord) : runWords (w :: ws) s = runWords ws t :=
  runWords_cons (issue_with_inputs h _)

theorem issue_answers (w : CmdWord) (s : State) : ∃ t, issue w s = .next t := by
  cases hd : decode w with
  | command i => simpa only [issue_of_command hd] using exec_answers i s
  | illegal c => exact ⟨_, issue_of_illegal hd s⟩

theorem firstCause_cons_of_issue {w : CmdWord} {ws : List CmdWord} {s t : State}
    (hl : illegalCause w s = none) (h : issue w s = .next t) :
    firstCause (w :: ws) s = firstCause ws t := by
  rw [firstCause, hl, h]

theorem illegalCause_eq_none_of_firstCause {w : CmdWord} {ws : List CmdWord} {s : State}
    (h : firstCause (w :: ws) s = none) : illegalCause w s = none := by
  cases hc : illegalCause w s with
  | none => rfl
  | some c => rw [firstCause, hc] at h; exact h

/-- A run without an illegal command keeps ECAUSE (R34). -/
theorem runWords_ecause_of_legal (ws : List CmdWord) :
    ∀ s t : State, firstCause ws s = none → runWords ws s = .next t → t.ecause = s.ecause := by
  induction ws with
  | nil => intro s t _ h; cases h; rfl
  | cons w ws ih =>
    intro s t hc h
    have hl := illegalCause_eq_none_of_firstCause hc
    obtain ⟨u, hu⟩ := issue_answers w s
    rw [firstCause_cons_of_issue hl hu] at hc
    rw [runWords_cons_of_issue hu] at h
    exact (ih u t hc h).trans (issue_ecause_of_legal hl hu)

/-! ## The none form of the opcode table, and the words of commands (R61, R62) -/

/-- A word with Z = 0 whose IMM fits its row's form is the row's command. -/
theorem decode_wordOf {op : BitVec 4} {imm : Byte} (hop : op ≠ 0x0)
    (hn : formOf op = .noOperand → imm = 0x00)
    (ha : formOf op = .u7 → imm.getLsbD 7 = false) :
    decode (wordOf op imm) = .command (commandOf op imm) := by
  have hopf : opField (wordOf op imm) = op := opField_append ..
  have himm : immField (wordOf op imm) = imm := immField_append ..
  rw [← hopf] at hop
  refine (decode_of_checks_passed hop (zField_append ..) ?_ ?_).trans (by rw [hopf, himm]) <;>
    rw [hopf, himm]
  · exact fun h => h.2 (hn h.1)
  · exact fun h => Bool.eq_false_iff.mp (ha h.1) h.2

/-- A row of the none form decodes from its word alone, and refuses a nonzero Z or IMM. -/
theorem decodesNone_of_row {op : BitVec 4} {i : Instr} (hop : op ≠ 0x0)
    (hform : formOf op = .noOperand) (hrow : commandOf op 0x00 = i) : DecodesNone op i := by
  refine ⟨?_, fun z imm hz => decode_append_of_z_ne_zero hop hz imm, fun imm himm => ?_⟩
  · rw [append_zero_twelve, ← hrow]
    exact decode_wordOf hop (fun _ => rfl) (fun _ => rfl)
  · exact decode_of_immField_ne_zero (by rwa [opField_append]) (zField_append ..)
      (by rw [opField_append, immField_append]; exact ⟨hform, himm⟩)

end Sys2Proof.Proofs
end

section
/-! PROOFS of the statements on the validation sequence: V_BEGIN, V_PUSH and V_END
(42_frame_validator.md R144 to R146). -/

namespace Sys2Proof.Proofs

open Sys2Proof.Machine Sys2Proof.Safety Sys2Proof.Laws

/-! ## STATUS in each validator state (R31) -/

theorem statusByte_of_idle {s : State} (hs : s.vst = .idle) :
    statusByte s = if s.ecause = 0x00 then s.code.setWidth 8 else 0x80 ||| s.code.setWidth 8 := by
  rw [statusByte, hs, errBit]
  split
  · exact BitVec.zero_or
  · rfl

theorem statusByte_of_collect {s : State} (hs : s.vst = .collect) :
    statusByte s =
      if s.ecause = 0x00 then 0x40 ||| s.code.setWidth 8 else 0xC0 ||| s.code.setWidth 8 := by
  rw [statusByte, hs, errBit]
  split <;> rfl

/-! ## V_BEGIN (R144) -/

theorem decodesNone_vBegin : DecodesNone 0x9 .vBegin :=
  decodesNone_of_row (by decide) rfl rfl

/-- The whole effect of V_BEGIN, in either validator state. -/
theorem exec_vBegin (s : State) : exec .vBegin s = .next (beginValidation s) := rfl

/-- The word of V_BEGIN. -/
theorem issue_vBegin (s : State) : issue (encode .vBegin) s = .next (beginValidation s) :=
  issue_of_command decodesNone_vBegin.1 s

theorem headerOf_eq_ofNat (s : State) :
    headerOf s = [BitVec.ofNat 8 (2 * s.daddr.toNat), s.cmd, s.dlen, s.bcnt,
      BitVec.ofNat 8 (2 * s.daddr.toNat + 1)] :=
  headerBytes_eq_ofNat ..

/-- The CRC of the header in the rules' worked example. -/
theorem accumulate_header_example :
    accumulate pecSeed (headerBytes 0x40 0x9B 0x01 0x08) = 0x06 := by decide

/-- Settles O22: V_BEGIN's row is of the none form, its effect has no condition, and the byte count
it leaves unchecked is V_END's to report. -/
theorem vBeginOpensValidation : Obligations.VBeginOpensValidation := by
  refine ⟨decodesNone_vBegin, fun s => ?_, fun s t hb h => ?_, fun s ha hc hd hn => ?_⟩
  · rw [← headerOf_eq_ofNat]
    exact exec_vBegin s
  · cases h
    exact exec_vEnd_code_of_bad rfl ((badByteCount_eq_true_iff s.bcnt).mpr hb)
  · have hcrc : accumulate pecSeed (headerOf s) = 0x06 := by
      rw [headerOf, ha, hc, hd, hn, accumulate_header_example]
    exact ⟨_, issue_vBegin s, hcrc, hcrc⟩

/-! ## V_PUSH (R145) -/

theorem decodesU8_vPush : DecodesU8 0xA .vPush :=
  decodesU8_of_row (by decide) rfl fun _ => rfl

theorem exec_vPush_of_collect (b : Byte) {s : State} (hs : s.vst = .collect) :
    exec (.vPush b) s = .next (pushByte b s) :=
  whileOpen_of_collect hs _

theorem exec_vPush_of_idle (b : Byte) {s : State} (hs : s.vst = .idle) :
    exec (.vPush b) s = .next (takeIllegal .notOpen s) :=
  whileOpen_of_idle hs _

/-- The word of V_PUSH during a validation. -/
theorem issue_vPush_of_collect (b : Byte) {s : State} (hs : s.vst = .collect) :
    issue (encode (.vPush b)) s = .next (pushByte b s) := by
  have hdecode : decode (encode (.vPush b)) = .command (.vPush b) :=
    decode_wordOf (op := 0xA) (by decide) (fun h => OperandForm.noConfusion h)
      (fun h => OperandForm.noConfusion h)
  rw [issue_of_command hdecode, exec_vPush_of_collect b hs]

/-- RCNT counts and saturates (R30). -/
theorem countPush_toNat (n : Byte) : (countPush n).toNat = min (n.toNat + 1) 255 := by
  revert n; decide

theorem countPush_of_lt {n : Byte} (h : n.toNat < 255) : countPush n = n + 1 :=
  if_pos (BitVec.lt_def.mpr h)

theorem countPush_of_eq_max {n : Byte} (h : n.toNat = 255) : countPush n = 0xFF :=
  BitVec.eq_of_toNat_eq (by rw [countPush_toNat, h]; rfl)

/-- The first push of a validation only loads PEND. -/
theorem pushByte_of_first (b : Byte) {s : State} (h : s.rcnt.toNat = 0) :
    pushByte b s = { s with pend := b, rcnt := 0x01, rdata := 0x01 } := by
  have hr : s.rcnt = 0x00 := BitVec.eq_of_toNat_eq h
  simp only [pushByte, hr]
  rfl

/-- A later push folds the held-back byte. -/
theorem pushByte_of_later (b : Byte) {s : State} (h : 1 ≤ s.rcnt.toNat) :
    pushByte b s = { s with
      crc := genTable (s.crc ^^^ s.pend), pend := b
      rcnt := countPush s.rcnt, rdata := countPush s.rcnt } := by
  have hr : (1 : Byte) ≤ s.rcnt := BitVec.le_def.mpr h
  rw [pushByte, if_pos hr, foldByte_eq_genTable]

/-- Settles O23: V_PUSH's row is of the u8 form, the check of R173 guards its effect, and the count
splits it into the first push, a later one and one at saturation. -/
theorem vPushHoldsBackOneByte : Obligations.VPushHoldsBackOneByte := by
  refine ⟨decodesU8_vPush, fun b s hs h0 => ?_, fun b s hs h1 h255 => ?_, fun b s hs h255 => ?_,
    fun b s hs => exec_vPush_of_idle b hs, fun s hs hr hc => ?_⟩
  · rw [exec_vPush_of_collect b hs, pushByte_of_first b h0]
  · rw [exec_vPush_of_collect b hs, pushByte_of_later b h1, countPush_of_lt h255]
  · rw [exec_vPush_of_collect b hs, pushByte_of_later b (by omega), countPush_of_eq_max h255]
  · have h0 : s.rcnt.toNat = 0 := by rw [hr]; rfl
    have hfirst : issue 0xA001 s = .next (pushByte 0x01 s) := issue_vPush_of_collect 0x01 hs
    have hsecond : issue 0xA002 (pushByte 0x01 s) = .next (pushByte 0x02 (pushByte 0x01 s)) :=
      issue_vPush_of_collect 0x02 hs
    have hfold : genTable (0x06 ^^^ 0x01) = 0x15 := by decide
    rw [runWords_cons_of_issue hfirst, runWords_cons_of_issue hsecond, hfirst,
      pushByte_of_first 0x01 h0, pushByte_of_later 0x02 le_rfl, hc, hfold]
    exact ⟨rfl, rfl⟩

/-! ## V_END (R146) -/

theorem decodesNone_vEnd : DecodesNone 0xB .vEnd :=
  decodesNone_of_row (by decide) rfl rfl

/-- The word of V_END during a validation. -/
theorem issue_vEnd_of_collect {s : State} (hs : s.vst = .collect) :
    issue (encode .vEnd) s =
      .next (respond (statusByte (closeValidation s)) (closeValidation s)) := by
  rw [← exec_vEnd_of_collect hs]
  exact issue_of_command decodesNone_vEnd.1 s

/-- V_END writes the result that its checks give, closes the validation and answers STATUS. -/
theorem exec_vEnd_of_result {s : State} (hs : s.vst = .collect) {k : BitVec 3} {e x : Byte}
    (hk : resultCode s = k) (he : resultByte s s.crc = e) (hx : resultByte s s.pend = x) :
    exec .vEnd s = .next { s with
      code := k, exp := e, act := x, vst := .idle
      rdata := if s.ecause = 0x00 then k.setWidth 8 else 0x80 ||| k.setWidth 8 } := by
  subst hk he hx
  rw [exec_vEnd_of_collect hs, statusByte_of_idle rfl]
  rfl

/-! ## A validation with a response pushed (R145, R151) -/

/-- Accumulation goes on from where the first bytes left it (R103(b)). -/
theorem accumulate_append (c : Byte) (xs ys : List Byte) :
    accumulate c (xs ++ ys) = accumulate (accumulate c xs) ys := by
  induction xs generalizing c with
  | nil => rfl
  | cons x xs ih => rw [List.cons_append, accumulate_cons, accumulate_cons, ih]

theorem accumulate_concat (c b : Byte) (bs : List Byte) :
    accumulate c (bs ++ [b]) = genTable (accumulate c bs ^^^ b) := by
  rw [accumulate_append, accumulate_cons, accumulate_nil]

/-- R151's invariant: the validation of a header is open with the bytes `r` pushed. CRC covers the
header and every pushed byte but the last, which is in PEND; RCNT counts them, saturating. -/
structure Pushed (a : Addr7) (c d n : Byte) (r : List Byte) (s : State) : Prop where
  vst : s.vst = .collect
  daddr : s.daddr = a
  cmd : s.cmd = c
  dlen : s.dlen = d
  bcnt : s.bcnt = n
  code : s.code = codeNone
  exp : s.exp = 0x00
  act : s.act = 0x00
  crc : s.crc = accumulate pecSeed (headerBytes a c d n ++ r.dropLast)
  pend : s.pend = r.getLastD 0x00
  rcnt : s.rcnt.toNat = min r.length 255

/-- V_BEGIN opens the validation of the parameters' header with nothing pushed. -/
theorem pushed_beginValidation (s : State) :
    Pushed s.daddr s.cmd s.dlen s.bcnt [] (beginValidation s) where
  vst := rfl
  daddr := rfl
  cmd := rfl
  dlen := rfl
  bcnt := rfl
  code := rfl
  exp := rfl
  act := rfl
  crc := by rw [beginValidation_crc, List.dropLast_nil, List.append_nil]; rfl
  pend := rfl
  rcnt := rfl

section
variable {a : Addr7} {c d n : Byte} {r : List Byte} {s : State}

/-- The held-back byte is folded exactly when there is one. -/
theorem Pushed.pushByte_crc_eq (h : Pushed a c d n r s) (b : Byte) :
    (pushByte b s).crc = accumulate pecSeed (headerBytes a c d n ++ r) := by
  obtain rfl | ⟨xs, x, rfl⟩ := List.eq_nil_or_concat' r
  · rw [pushByte_of_first b h.rcnt]
    exact h.crc
  · have hr : 1 ≤ s.rcnt.toNat := by
      rw [h.rcnt, List.length_append, List.length_singleton]
      omega
    rw [pushByte_of_later b hr, h.crc, h.pend, List.dropLast_concat, List.getLastD_concat,
      ← List.append_assoc, accumulate_concat]

/-- V_PUSH keeps the invariant, with its byte at the response's end. -/
theorem Pushed.pushByte (h : Pushed a c d n r s) (b : Byte) :
    Pushed a c d n (r ++ [b]) (pushByte b s) where
  vst := h.vst
  daddr := h.daddr
  cmd := h.cmd
  dlen := h.dlen
  bcnt := h.bcnt
  code := h.code
  exp := h.exp
  act := h.act
  crc := by rw [h.pushByte_crc_eq b, List.dropLast_concat]
  pend := by rw [pushByte_pend, List.getLastD_concat]
  rcnt := by
    rw [pushByte_rcnt, countPush_toNat, h.rcnt, List.length_append, List.length_singleton]
    omega

/-- V_END's result agrees with `Validate` (R151's table). -/
theorem Pushed.closeValidation_eq_resultOf (h : Pushed a c d n r s) :
    ((closeValidation s).code, (closeValidation s).exp, (closeValidation s).act) =
      resultOf (validate a c d n r) r := by
  have hcount : s.rcnt < 2 ↔ r.length < 2 := by
    rw [BitVec.lt_def, h.rcnt]
    change _ < 2 ↔ _
    omega
  rw [closeValidation_code, closeValidation_exp, closeValidation_act]
  obtain ⟨hb, hk, hv⟩ | ⟨hb, hr, hk, hv⟩ | ⟨hb, hr, hk, hv⟩ := closeValidation_cases s <;>
    rw [h.bcnt] at hb <;> rw [hk, hv, hv]
  · rw [validate_of_bad hb]
    rfl
  · rw [validate_of_short hb (hcount.mp hr)]
    rfl
  · rw [validate_of_long hb (Nat.not_lt.mp (mt hcount.mpr hr)), h.crc, h.pend]
    split
    · next he => rw [he]; rfl
    · rfl

/-- The pushes of a response, whatever words follow them. -/
theorem Pushed.runWords_pushes (q : List Byte) :
    ∀ {r : List Byte} {s : State}, Pushed a c d n r s →
      ∃ t, Pushed a c d n (r ++ q) t ∧ t.ecause = s.ecause ∧
        ∀ ws, runWords (q.map (fun b => encode (.vPush b)) ++ ws) s = runWords ws t := by
  induction q with
  | nil => exact fun {r s} h => ⟨s, by rwa [List.append_nil], rfl, fun _ => rfl⟩
  | cons b q ih =>
    intro r s h
    obtain ⟨t, ht, hecause, hrun⟩ := ih (h.pushByte b)
    refine ⟨t, by rwa [List.append_assoc] at ht, hecause, fun ws => ?_⟩
    rw [List.map_cons, List.cons_append,
      runWords_cons_of_issue (issue_vPush_of_collect b h.vst), hrun]

end

/-- A validation of the response `r` under the parameters of the state reports `Validate`'s result
and answers STATUS. -/
theorem runWords_frameWords (r : List Byte) (s : State) :
    ∃ t, (t.code, t.exp, t.act) = resultOf (validate s.daddr s.cmd s.dlen s.bcnt r) r ∧
      t.vst = .idle ∧ t.ecause = s.ecause ∧ t.rdata = statusByte t ∧
      ∀ ws, runWords (frameWords r ++ ws) s = runWords ws t := by
  obtain ⟨u, hu, hecause, hrun⟩ := (pushed_beginValidation s).runWords_pushes r
  refine ⟨respond (statusByte (closeValidation u)) (closeValidation u),
    hu.closeValidation_eq_resultOf, rfl, hecause, rfl, fun ws => ?_⟩
  rw [frameWords, List.cons_append, List.cons_append, List.append_assoc,
    runWords_cons_of_issue (issue_vBegin s), hrun, List.singleton_append,
    runWords_cons_of_issue (issue_vEnd_of_collect hu.vst)]

/-! ## The rules' worked examples (R146 to R149) -/

/-- The response of the example that is valid, 01 to 08 and its PEC 54. -/
def validResponse : List Byte := [0x01, 0x02, 0x03, 0x04, 0x05, 0x06, 0x07, 0x08, 0x54]

/-- The same with its first byte changed. -/
def changedResponse : List Byte := [0x00, 0x02, 0x03, 0x04, 0x05, 0x06, 0x07, 0x08, 0x54]

theorem validate_validResponse : validate 0x40 0x9B 0x01 0x08 validResponse = .valid := by
  refine (validate_eq_valid_iff_of_long (by decide) (by decide) ..).mpr ?_
  rw [accumulate_append, accumulate_header_example]
  decide

theorem validate_changedResponse :
    validate 0x40 0x9B 0x01 0x08 changedResponse = .mismatch 0x47 0x54 := by
  have hcrc : accumulate pecSeed (headerBytes 0x40 0x9B 0x01 0x08 ++ changedResponse.dropLast) =
      0x47 := by
    rw [accumulate_append, accumulate_header_example]
    decide
  rw [validate_of_long (by decide) (by decide), hcrc]
  rfl

section
variable {s : State} (ha : s.daddr = 0x40) (hc : s.cmd = 0x9B) (hd : s.dlen = 0x01)
  (hn : s.bcnt = 0x08)
include ha hc hd hn

/-- What the valid response leaves: VALID with both bytes 54, and STATUS answered. -/
theorem runWords_validResponse :
    ∃ t, t.code = codeValid ∧ t.exp = 0x54 ∧ t.act = 0x54 ∧ t.vst = .idle ∧
      t.ecause = s.ecause ∧ t.rdata = statusByte t ∧
      ∀ ws, runWords (frameWords validResponse ++ ws) s = runWords ws t := by
  obtain ⟨t, hresult, hrest⟩ := runWords_frameWords validResponse s
  rw [ha, hc, hd, hn, validate_validResponse] at hresult
  simp only [resultOf, Prod.mk.injEq] at hresult
  obtain ⟨hcode, hexp, hact⟩ := hresult
  exact ⟨t, hcode, hexp, hact, hrest⟩

/-- What the changed response leaves: MISMATCH, expected 47 and actual 54. -/
theorem runWords_changedResponse :
    ∃ t, t.code = codeMismatch ∧ t.exp = 0x47 ∧ t.act = 0x54 ∧
      ∀ ws, runWords (frameWords changedResponse ++ ws) s = runWords ws t := by
  obtain ⟨t, hresult, -, -, -, hrun⟩ := runWords_frameWords changedResponse s
  rw [ha, hc, hd, hn, validate_changedResponse] at hresult
  simp only [resultOf, Prod.mk.injEq] at hresult
  obtain ⟨hcode, hexp, hact⟩ := hresult
  exact ⟨t, hcode, hexp, hact, hrun⟩

end

theorem statusByte_of_valid {s : State} (hs : s.vst = .idle) (hcode : s.code = codeValid)
    (hecause : s.ecause = 0x00) : statusByte s = 0x01 := by
  rw [statusByte_of_idle hs, if_pos hecause, hcode]
  rfl

/-! ## What V_END writes in each outcome (R146) -/

section
variable {s : State} (hs : s.vst = .collect)
include hs

theorem exec_vEnd_of_bad (hb : badByteCount s.bcnt = true) :
    exec .vEnd s = .next { s with
      code := 3, exp := 0x00, act := 0x00, vst := .idle
      rdata := if s.ecause = 0x00 then 0x03 else 0x83 } :=
  exec_vEnd_of_result hs (resultCode_of_bad hb) (resultByte_of_bad hb _) (resultByte_of_bad hb _)

variable (hb : badByteCount s.bcnt = false)
include hb

theorem exec_vEnd_of_short (hr : shortResponse s = true) :
    exec .vEnd s = .next { s with
      code := 4, exp := 0x00, act := 0x00, vst := .idle
      rdata := if s.ecause = 0x00 then 0x04 else 0x84 } :=
  exec_vEnd_of_result hs (resultCode_of_short hb hr) (resultByte_of_short hr _)
    (resultByte_of_short hr _)

variable (hr : shortResponse s = false)
include hr

theorem exec_vEnd_of_equal (he : s.crc = s.pend) :
    exec .vEnd s = .next { s with
      code := 1, exp := s.crc, act := s.pend, vst := .idle
      rdata := if s.ecause = 0x00 then 0x01 else 0x81 } :=
  exec_vEnd_of_result hs ((resultCode_of_long hb hr).trans (if_pos he))
    (resultByte_of_long hb hr _) (resultByte_of_long hb hr _)

theorem exec_vEnd_of_differ (he : s.crc ≠ s.pend) :
    exec .vEnd s = .next { s with
      code := 2, exp := s.crc, act := s.pend, vst := .idle
      rdata := if s.ecause = 0x00 then 0x02 else 0x82 } :=
  exec_vEnd_of_result hs ((resultCode_of_long hb hr).trans (if_neg he))
    (resultByte_of_long hb hr _) (resultByte_of_long hb hr _)

end

/-- The response lengths that are too short, by RCNT (R125). -/
theorem shortResponse_of_lt {s : State} (h : s.rcnt.toNat < 2) : shortResponse s = true :=
  (shortResponse_iff s).mpr (BitVec.lt_def.mpr h)

theorem shortResponse_of_ge {s : State} (h : 2 ≤ s.rcnt.toNat) : shortResponse s = false :=
  Bool.eq_false_iff.mpr fun hr =>
    Nat.not_lt.mpr h (BitVec.lt_def.mp ((shortResponse_iff s).mp hr))

/-- V_END keeps CRC, which with nothing pushed is the header's (R144, R146). -/
theorem exec_vEnd_crc_of_nothing_pushed {s : State} (ho : OpenValidation s)
    (hs : s.vst = .collect) (hr : s.rcnt.toNat = 0) :
    ∃ t, exec .vEnd s = .next t ∧ t.crc = accumulate pecSeed (headerOf s) := by
  obtain ⟨-, -, -, -, hcrc⟩ := ho hs
  have hlt : s.rcnt < 2 := BitVec.lt_def.mpr (by rw [hr]; decide)
  exact ⟨_, exec_vEnd_of_collect hs, hcrc hlt⟩

/-- Settles O24: V_END's row is of the none form, its checks in order select the result, and the
example is the run of a whole validation. -/
theorem vEndReportsResult : Obligations.VEndReportsResult := by
  have hgood {n : Byte} (h1 : 1 ≤ n.toNat) (h8 : n.toNat ≤ 8) : badByteCount n = false :=
    (badByteCount_eq_false_iff n).mpr ⟨h1, h8⟩
  refine ⟨decodesNone_vEnd,
    fun s hs hb => exec_vEnd_of_bad hs ((badByteCount_eq_true_iff s.bcnt).mpr hb),
    fun s hs h1 h8 hr => exec_vEnd_of_short hs (hgood h1 h8) (shortResponse_of_lt hr),
    fun s hs h1 h8 hr he => exec_vEnd_of_equal hs (hgood h1 h8) (shortResponse_of_ge hr) he,
    fun s hs h1 h8 hr he => exec_vEnd_of_differ hs (hgood h1 h8) (shortResponse_of_ge hr) he,
    fun s hs => whileOpen_of_idle hs _,
    fun s ho hs hr => exec_vEnd_crc_of_nothing_pushed ho hs hr, fun s ha hc hd hn h0 => ?_⟩
  obtain ⟨t, hcode, hexp, hact, hidle, hecause, hrdata, hrun⟩ := runWords_validResponse ha hc hd hn
  exact ⟨{ t with inputs := [] }, hrun [], hcode, hexp, hact,
    hrdata.trans (statusByte_of_valid hidle hcode (hecause.trans h0))⟩

end Sys2Proof.Proofs
end

section
/-! PROOFS of the statements on the reads of the result: RD_STATUS, RD_EXP, RD_ACT and RD_ECAUSE
(42_frame_validator.md R147 to R150). -/

namespace Sys2Proof.Proofs

open Sys2Proof.Machine Sys2Proof.Safety Sys2Proof.Laws

/-! ## RD_STATUS (R147) -/

theorem decodesNone_rdStatus : DecodesNone 0xC .rdStatus :=
  decodesNone_of_row (by decide) rfl rfl

/-- The whole effect of RD_STATUS, in either validator state. -/
theorem exec_rdStatus (s : State) : exec .rdStatus s = .next { s with rdata := statusByte s } := rfl

theorem statusByte_reset : statusByte State.reset = 0x00 := by decide

/-- An open validation has no result code (R31). -/
theorem statusByte_of_openValidation {s : State} (ho : OpenValidation s) (hs : s.vst = .collect) :
    statusByte s = if s.ecause = 0x00 then 0x40 else 0xC0 := by
  obtain ⟨hcode, -⟩ := ho hs
  rw [statusByte_of_collect hs, hcode]
  rfl

/-- Settles O25: RD_STATUS's row is of the none form, and its response is STATUS of the state. -/
theorem rdStatusAnswersStatus : Obligations.RdStatusAnswersStatus := by
  refine ⟨decodesNone_rdStatus, exec_rdStatus, ?_, fun s ho hs => ?_, fun s ha hc hd hn h0 => ?_⟩
  · rw [exec_rdStatus, statusByte_reset]
    rfl
  · rw [exec_rdStatus, statusByte_of_openValidation ho hs]
  · obtain ⟨t, hcode, -, -, hidle, hecause, -, hrun⟩ := runWords_validResponse ha hc hd hn
    have hread : issue 0xC000 t = .next { t with rdata := statusByte t } :=
      issue_of_command decodesNone_rdStatus.1 t
    exact ⟨_, (hrun [0xC000]).trans (runWords_cons_of_issue hread []),
      statusByte_of_valid hidle hcode (hecause.trans h0)⟩

/-! ## RD_EXP and RD_ACT (R148, R149) -/

theorem decodesNone_rdExp : DecodesNone 0xD .rdExp :=
  decodesNone_of_row (by decide) rfl rfl

theorem decodesNone_rdAct : DecodesNone 0xE .rdAct :=
  decodesNone_of_row (by decide) rfl rfl

/-- The whole effect of RD_EXP, in either validator state. -/
theorem exec_rdExp (s : State) : exec .rdExp s = .next { s with rdata := s.exp } := rfl

/-- The whole effect of RD_ACT, in either validator state. -/
theorem exec_rdAct (s : State) : exec .rdAct s = .next { s with rdata := s.act } := rfl

/-- The codes of R31 beside VALID and MISMATCH. -/
theorem code_cases {k : BitVec 3} (hle : k ≤ 4) (h1 : k ≠ codeValid) (h2 : k ≠ codeMismatch) :
    k = codeNone ∨ k = codeInvalidLength ∨ k = codeEmptyResponse := by
  revert k; decide

/-- EXP and ACT are zero beside a result that is neither VALID nor MISMATCH (R32, R33). -/
theorem result_bytes_zero {s : State} (hr : ResultRegisters s) (hl : LegalCodes s)
    (h1 : s.code ≠ codeValid) (h2 : s.code ≠ codeMismatch) : s.exp = 0x00 ∧ s.act = 0x00 := by
  obtain ⟨hzero, -, -⟩ := hr
  obtain ⟨hcode, -⟩ := hl
  exact hzero (code_cases hcode h1 h2)

/-- Settles O26: RD_EXP's row is of the none form, and its response is EXP, whatever CODE says. -/
theorem rdExpAnswersExpected : Obligations.RdExpAnswersExpected := by
  refine ⟨decodesNone_rdExp, exec_rdExp, fun s hr hl h1 h2 => ?_, fun s ha hc hd hn _ => ?_⟩
  · obtain ⟨hexp, -⟩ := result_bytes_zero hr hl h1 h2
    rw [exec_rdExp, hexp]
  · obtain ⟨t, hcode, hexp, -, hrun⟩ := runWords_changedResponse ha hc hd hn
    have hread : issue 0xD000 t = .next { t with rdata := t.exp } :=
      issue_of_command decodesNone_rdExp.1 t
    exact ⟨_, (hrun [0xD000]).trans (runWords_cons_of_issue hread []), hcode, hexp⟩

/-- Settles O27: RD_ACT's row is of the none form, and its response is ACT, whatever CODE says. -/
theorem rdActAnswersActual : Obligations.RdActAnswersActual := by
  refine ⟨decodesNone_rdAct, exec_rdAct, fun s hr hl h1 h2 => ?_, fun s ha hc hd hn _ => ?_⟩
  · obtain ⟨-, hact⟩ := result_bytes_zero hr hl h1 h2
    rw [exec_rdAct, hact]
  · obtain ⟨t, hcode, -, hact, hrun⟩ := runWords_changedResponse ha hc hd hn
    have hread : issue 0xE000 t = .next { t with rdata := t.act } :=
      issue_of_command decodesNone_rdAct.1 t
    exact ⟨_, (hrun [0xE000]).trans (runWords_cons_of_issue hread []), hcode, hact⟩

/-! ## RD_ECAUSE (R150) -/

theorem decodesNone_rdEcause : DecodesNone 0xF .rdEcause :=
  decodesNone_of_row (by decide) rfl rfl

/-- The whole effect of RD_ECAUSE, in either validator state: ECAUSE stays. -/
theorem exec_rdEcause (s : State) : exec .rdEcause s = .next { s with rdata := s.ecause } := rfl

/-- The first illegal command since reset records its cause. -/
theorem takeIllegal_of_ecause_zero {s : State} (h : s.ecause = 0x00) (c : Cause) :
    takeIllegal c s = { s with ecause := causeCode c, rdata := 0x00 } := by
  rw [takeIllegal, if_pos h]

/-- Settles O28: RD_ECAUSE's row is of the none form, its response is ECAUSE, and a run without an
illegal command leaves ECAUSE at its reset value. -/
theorem rdEcauseAnswersFirstCause : Obligations.RdEcauseAnswersFirstCause := by
  refine ⟨decodesNone_rdEcause, exec_rdEcause, fun ws t hc h => ?_, fun s h0 => ?_,
    fun s h0 hs => ?_⟩
  · rw [exec_rdEcause, runWords_ecause_of_legal ws State.reset t hc h]
    rfl
  · have hdecode : decode 0xF001 = .illegal .immNonzero := by decide
    rw [issue_of_illegal hdecode, takeIllegal_of_ecause_zero h0]
    rfl
  · have hdecode : decode 0xA033 = .command (.vPush 0x33) := decodesU8_vPush.1 0xA033 rfl
    have hpush : issue 0xA033 s = .next (takeIllegal .notOpen s) :=
      (issue_of_command hdecode s).trans (exec_vPush_of_idle 0x33 hs)
    have hread (u : State) : issue 0xF000 u = .next { u with rdata := u.ecause } :=
      issue_of_command decodesNone_rdEcause.1 u
    rw [runWords_cons_of_issue hpush, runWords_cons_of_issue (hread _),
      takeIllegal_of_ecause_zero h0]
    rfl

end Sys2Proof.Proofs
end

section
/-! PROOFS of the statements on illegal commands (60_exceptions.md): the effect of one, and which
cause a word has in a state. -/

namespace Sys2Proof.Proofs

open Sys2Proof.Machine Sys2Proof.Safety Sys2Proof.Laws

/-! ## The effect of an illegal command (R171) -/

/-- After an illegal command a cause is recorded: its own, or the earlier one that is kept. -/
theorem takeIllegal_ecause_ne_zero (c : Cause) (s : State) : (takeIllegal c s).ecause ≠ 0x00 := by
  by_cases hs : s.ecause = 0x00
  · rw [takeIllegal_ecause, if_pos hs]
    cases c <;> decide
  · rwa [takeIllegal_ecause_of_ne_zero hs]

/-- Words issued after an illegal command are accepted, and the first cause stays. -/
theorem runWords_ecause_of_ne_zero (ws : List CmdWord) :
    ∀ s : State, s.ecause ≠ 0x00 → ∃ t, runWords ws s = .next t ∧ t.ecause = s.ecause := by
  induction ws with
  | nil => exact fun s _ => ⟨_, runWords_nil s, rfl⟩
  | cons w ws ih =>
    intro s hs
    obtain ⟨u, hu⟩ := issue_answers w s
    have hkept := issue_ecause_of_ne_zero hu hs
    obtain ⟨t, ht, hecause⟩ := ih u (hkept ▸ hs)
    exact ⟨t, (runWords_cons_of_issue hu ws).trans ht, hecause.trans hkept⟩

/-- Settles O30: the effect is `takeIllegal`, which leaves a cause in ECAUSE, and no later word
clears it. -/
theorem illegalCommandHasExactlyOneEffect : Obligations.IllegalCommandHasExactlyOneEffect := by
  intro w s c hc
  have hne := takeIllegal_ecause_ne_zero c s
  refine ⟨takeIllegal c s, rfl, issue_of_illegalCause hc, (statusByte_getLsbD_seven _).mpr hne,
    fun ws => ?_⟩
  obtain ⟨u, hu, hecause⟩ := runWords_ecause_of_ne_zero ws _ hne
  exact ⟨u, hu, (statusByte_getLsbD_seven u).mpr (hecause ▸ hne)⟩

/-! ## The causes of illegality (R170, R172, R173) -/

/-- Bit 7 of a word is IMM[7]. -/
theorem immField_getLsbD_seven (w : CmdWord) : (immField w).getLsbD 7 = w.getLsbD 7 := by
  simp [immField]

/-- R173 by operation codes: the six commands refused in COLLECT and the two refused in IDLE. -/
theorem illegalInState_commandOf {op : BitVec 4} (hop : op ≠ 0x0) (imm : Byte) (v : Vst) :
    illegalInState (commandOf op imm) v =
      if v = .collect ∧ op ∈ [0x2#4, 0x3#4, 0x5#4, 0x6#4, 0x7#4, 0x8#4] then some .busy
      else if v = .idle ∧ op ∈ [0xA#4, 0xB#4] then some .notOpen
      else none := by
  obtain ⟨⟨n, hn⟩⟩ := op
  interval_cases n
  · exact absurd rfl hop
  all_goals cases v <;> rfl

/-- The decode checks in their order, and past them the state's (R170). -/
theorem illegalCause_eq_first_check (w : CmdWord) (s : State) :
    illegalCause w s =
      if opField w = 0x0 then some .rsvdOp
      else if zField w ≠ 0x0 then some .rsvdField
      else if formOf (opField w) = .noOperand ∧ immField w ≠ 0x00 then some .immNonzero
      else if formOf (opField w) = .u7 ∧ (immField w).getLsbD 7 = true then some .addrRange
      else illegalInState (commandOf (opField w) (immField w)) s.vst := by
  split_ifs with h0 hz hn ha
  · exact illegalCause_of_command (decode_of_opField_zero h0) s
  · exact illegalCause_of_illegal (decode_of_zField_ne_zero h0 hz) s
  · exact illegalCause_of_illegal (decode_of_immField_ne_zero h0 (not_not.mp hz) hn) s
  · exact illegalCause_of_illegal (decode_of_address_bit_seven h0 (not_not.mp hz) hn ha) s
  · exact illegalCause_of_command (decode_of_checks_passed h0 (not_not.mp hz) hn ha) s

/-- The cause recorded when none was: the word's cause in the state, if it has one. -/
theorem issue_ecause_of_eq_zero {w : CmdWord} {s t : State} (hs : s.ecause = 0x00)
    (h : issue w s = .next t) : t.ecause = (illegalCause w s).elim 0x00 causeCode := by
  cases hc : illegalCause w s with
  | none => exact (issue_ecause_of_legal hc h).trans hs
  | some c =>
    cases (issue_of_illegalCause hc).symm.trans h
    exact if_pos hs

/-- Settles O31: the decode checks come first, the state's checks are R173's rows, and a word
without a cause is a command. -/
theorem causesOfIllegality : Obligations.CausesOfIllegality := by
  refine ⟨fun w s => ?_, fun w s h0 => ?_, fun w s hl => ?_, rfl⟩
  · refine (illegalCause_eq_first_check w s).trans ?_
    exact if_ctx_congr Iff.rfl (fun _ => rfl) fun hop => if_congr Iff.rfl rfl <|
      if_congr (and_congr_left' (formOf_eq_noOperand_iff _)) rfl <|
      if_congr (and_congr (formOf_eq_u7_iff _) (Eq.congr_left (immField_getLsbD_seven w))) rfl <|
      illegalInState_commandOf hop _ _
  · obtain ⟨t, ht⟩ := issue_answers w s
    refine ⟨t, ht, (issue_ecause_of_eq_zero h0 ht).trans ?_⟩
    cases illegalCause w s <;> rfl
  · obtain ⟨i, hd, -⟩ := command_of_illegalCause_eq_none hl
    exact ⟨i, hd, issue_of_command hd s⟩

end Sys2Proof.Proofs
end

section
/-! PROOFS of the statements on reset and hazards (70_reset_and_hazards.md). -/

namespace Sys2Proof.Proofs

open Sys2Proof.Machine Sys2Proof.Laws

/-! ## The reset input (R190) -/

/-- Settles O41: a reset takes nothing from the state but the offered inputs, and a command word
keeps an ECAUSE that holds a cause. -/
theorem resetLoadsEveryRegister : Obligations.ResetLoadsEveryRegister := by
  refine ⟨accept_reset, fun w s t hs h => ?_⟩
  have hkept : t.ecause = s.ecause := issue_ecause_of_ne_zero h hs
  exact hkept ▸ hs

end Sys2Proof.Proofs
end

section
/-! PROOFS of the statements on encoding: decoding and encoding as inverses (30_encoding.md R60 to
R65), and the reserved row (R64(a)). -/

namespace Sys2Proof.Proofs

open Sys2Proof.Machine Sys2Proof.Safety Sys2Proof.Laws

/-! ## Decoding a command's own word -/

theorem opField_encode_reserved (low : BitVec 12) : opField (encode (.reserved low)) = 0x0 :=
  BitVec.extractLsb'_append_eq_left

theorem lowField_encode_reserved (low : BitVec 12) : lowField (encode (.reserved low)) = low :=
  BitVec.extractLsb'_append_eq_right

/-- The u7 operand leaves IMM[7] clear. -/
theorem setWidth_addr_getLsbD_seven (a : Addr7) : (a.setWidth 8 : Byte).getLsbD 7 = false := by
  revert a; decide

theorem addrOf_setWidth (a : Addr7) : addrOf (a.setWidth 8) = a := by
  revert a; decide

theorem decode_encode (i : Instr) : decode (encode i) = .command i := by
  cases i with
  | reserved low =>
    rw [decode_of_opField_zero (opField_encode_reserved low), lowField_encode_reserved]
  | setAddr a =>
    have hword : decode (wordOf 0x5 (a.setWidth 8)) = .command (.setAddr (addrOf (a.setWidth 8))) :=
      decode_wordOf (by decide) (fun h => OperandForm.noConfusion h)
        (fun _ => setWidth_addr_getLsbD_seven a)
    rwa [addrOf_setWidth] at hword
  | crcRd | vBegin | vEnd | rdStatus | rdExp | rdAct | rdEcause =>
    exact decode_wordOf (by decide) (fun _ => rfl) (fun h => OperandForm.noConfusion h)
  | tblRd | crcInit | crcAcc | setCmd | setDlen | setBcnt | vPush =>
    exact decode_wordOf (by decide) (fun h => OperandForm.noConfusion h)
      (fun h => OperandForm.noConfusion h)

/-! ## Encoding what a word decodes to -/

/-- Everything a word that decodes to a command can be: one of the reserved row, or one that has
passed the decode checks. -/
theorem decode_command_cases {w : CmdWord} {i : Instr} (h : decode w = .command i) :
    (opField w = 0x0 ∧ i = .reserved (lowField w)) ∨
    (opField w ≠ 0x0 ∧ zField w = 0x0 ∧ (formOf (opField w) = .noOperand → immField w = 0x00) ∧
      (formOf (opField w) = .u7 → (immField w).getLsbD 7 = false) ∧
      i = commandOf (opField w) (immField w)) := by
  by_cases h0 : opField w = 0x0
  · exact .inl ⟨h0, Decoded.command.inj (h.symm.trans (decode_of_opField_zero h0))⟩
  by_cases hz : zField w = 0x0
  case neg => cases (decode_of_zField_ne_zero h0 hz).symm.trans h
  by_cases hn : formOf (opField w) = .noOperand ∧ immField w ≠ 0x00
  · cases (decode_of_immField_ne_zero h0 hz hn).symm.trans h
  by_cases ha : formOf (opField w) = .u7 ∧ (immField w).getLsbD 7 = true
  · cases (decode_of_address_bit_seven h0 hz hn ha).symm.trans h
  exact .inr ⟨h0, hz, fun hf => not_not.mp fun himm => hn ⟨hf, himm⟩,
    fun hf => Bool.eq_false_iff.mpr fun hbit => ha ⟨hf, hbit⟩,
    Decoded.command.inj (h.symm.trans (decode_of_checks_passed h0 hz hn ha))⟩

/-- A word of the reserved row is OP = 0x0 and its low 12 bits. -/
theorem encode_reserved_lowField {w : CmdWord} (hop : opField w = 0x0) :
    encode (.reserved (lowField w)) = w := by
  have hlow : lowField w = zField w ++ immField w := by
    conv_lhs => rw [eq_append_fields w, lowField_append]
  rw [hlow]
  conv_rhs => rw [eq_append_fields w, hop, BitVec.append_assoc]
  rfl

theorem setWidth_addrOf {imm : Byte} (h : imm.getLsbD 7 = false) :
    (addrOf imm).setWidth 8 = imm := by
  revert imm; decide

/-- The word of a row's command is the row's operation code with the operand that fits its form. -/
theorem encode_commandOf {op : BitVec 4} {imm : Byte} (hop : op ≠ 0x0)
    (hn : formOf op = .noOperand → imm = 0x00) (ha : formOf op = .u7 → imm.getLsbD 7 = false) :
    encode (commandOf op imm) = wordOf op imm := by
  cases hform : formOf op with
  | noOperand =>
    cases hn hform
    revert op; decide
  | u7 =>
    cases (formOf_eq_u7_iff op).mp hform
    exact congrArg (wordOf 0x5) (setWidth_addrOf (ha hform))
  | u8 =>
    obtain ⟨⟨n, hlt⟩⟩ := op
    interval_cases n
    · exact absurd rfl hop
    all_goals cases hform <;> rfl

/-- The only word that decodes to a command is the command's own. -/
theorem encode_of_decode {w : CmdWord} {i : Instr} (h : decode w = .command i) : encode i = w := by
  obtain ⟨hop, rfl⟩ | ⟨hop, hz, hn, ha, rfl⟩ := decode_command_cases h
  · exact encode_reserved_lowField hop
  · calc encode (commandOf (opField w) (immField w))
        = (opField w ++ 0x0#4) ++ immField w := encode_commandOf hop hn ha
      _ = (opField w ++ zField w) ++ immField w := by rw [hz]; rfl
      _ = w := (eq_append_fields w).symm

/-- Settles O1: each row's word passes the decode checks, and a word that passes them is its row's
operation code with an operand that fits. -/
theorem decodingInvertsEncoding : Obligations.DecodingInvertsEncoding :=
  ⟨decode_encode, fun _ _ => encode_of_decode⟩

/-! ## The reserved row (R64(a)) and the spec's example words (R68) -/

/-- The mask 0xF000 keeps OP. -/
theorem and_F000 (w : CmdWord) : w &&& 0xF000 = (opField w ++ 0x0#4) ++ 0x00#8 := by
  calc w &&& 0xF000
      = ((opField w ++ zField w) ++ immField w) &&& ((BitVec.allOnes 4 ++ 0x0#4) ++ 0x00#8) := by
        rw [← eq_append_fields w]; rfl
    _ = (opField w ++ 0x0#4) ++ 0x00#8 := by
        simp only [BitVec.and_append, BitVec.and_allOnes, BitVec.and_zero]

theorem opField_of_and_F000_eq_zero {w : CmdWord} (hw : w &&& 0xF000 = 0x0000) :
    opField w = 0x0 := by
  have hop := congrArg opField hw
  rwa [and_F000, opField_append] at hop

theorem lowField_eq_setWidth (w : CmdWord) : lowField w = w.setWidth 12 :=
  (BitVec.setWidth_eq_extractLsb' (by decide)).symm

/-- Settles O29: OP = 0x0 is the decoder's first check, and the row's meaning is the effect of R171
with cause 1. -/
theorem reservedOpcodeRecordsCauseOne : Obligations.ReservedOpcodeRecordsCauseOne := by
  refine ⟨fun w hw => ?_, fun low s => rfl⟩
  rw [decode_of_opField_zero (opField_of_and_F000_eq_zero hw), lowField_eq_setWidth]

/-- Settles O4: closed instances, evaluated. -/
theorem sampleWordsDecode : Obligations.SampleWordsDecode := by
  unfold Obligations.SampleWordsDecode
  decide

/-! ## The assembler's checks (R66, R67) -/

theorem fitsU8_iff (n : Nat) : fitsU8 n = true ↔ n ≤ 255 := by
  rw [fitsU8, decide_eq_true_iff, Nat.lt_succ_iff]

theorem fitsU7_iff (n : Nat) : fitsU7 n = true ↔ n ≤ 127 := by
  rw [fitsU7, decide_eq_true_iff, Nat.lt_succ_iff]

theorem all_fitsU8_iff (ns : List Nat) : ns.all fitsU8 = true ↔ ∀ n ∈ ns, n ≤ 255 := by
  simp only [List.all_eq_true, fitsU8_iff]

/-- What the assembler answers on a line, from its check and its commands. -/
theorem assemble_eq_ite {m : Mnemonic} {ops : List Nat} {p : Prop} [Decidable p]
    {ws : List CmdWord} (hfit : operandsFit m ops = true ↔ p)
    (hws : (expandLine { mnemonic := m, operands := ops }).map encode = ws) :
    assemble { mnemonic := m, operands := ops } = if p then some ws else none :=
  if_congr hfit (congrArg some hws) rfl

/-! ## The text of a line (R66) -/

/-- A comment is cut off with its semicolon. -/
theorem beforeComment_append_comment (line comment : List Char) :
    beforeComment (line ++ ';' :: comment) = beforeComment line := by
  induction line with
  | nil => rfl
  | cons c line ih =>
    rw [beforeComment, beforeComment, List.cons_append, List.takeWhile_cons, List.takeWhile_cons]
    exact ite_congr rfl (fun _ => congrArg (c :: ·) ih) fun _ => rfl

theorem assembleText_append_comment (line comment : List Char) :
    assembleText (line ++ ';' :: comment) = assembleText line := by
  rw [assembleText, assembleText, beforeComment_append_comment]

/-- Settles O5: each form's check on its operand list, and the example lines evaluated. -/
theorem assemblerRejectsWhatDoesNotFit : Obligations.AssemblerRejectsWhatDoesNotFit := by
  refine ⟨fun ops m mk hm => ?_, fun ops => ?_, fun m i ops hm => ?_,
    assembleText_append_comment, by decide, by decide, by decide, by decide⟩
  · simp only [List.mem_cons, List.not_mem_nil, or_false, Prod.mk.injEq] at hm
    obtain ⟨rfl, rfl⟩ | ⟨rfl, rfl⟩ | ⟨rfl, rfl⟩ | ⟨rfl, rfl⟩ | ⟨rfl, rfl⟩ | ⟨rfl, rfl⟩ |
      ⟨rfl, rfl⟩ := hm
    all_goals
      match ops with
      | [] | _ :: _ :: _ => rfl
      | [n] => exact assemble_eq_ite (fitsU8_iff n) rfl
  · match ops with
    | [] | _ :: _ :: _ => rfl
    | [a] => exact assemble_eq_ite (fitsU7_iff a) rfl
  · simp only [List.mem_cons, List.not_mem_nil, or_false, Prod.mk.injEq] at hm
    obtain ⟨rfl, rfl⟩ | ⟨rfl, rfl⟩ | ⟨rfl, rfl⟩ | ⟨rfl, rfl⟩ | ⟨rfl, rfl⟩ | ⟨rfl, rfl⟩ |
      ⟨rfl, rfl⟩ := hm
    all_goals cases ops <;> rfl

/-- `V_SETUP`'s words for numbers of any size. -/
theorem map_encode_expandSetup_ofNat (a c d n : Nat) :
    (expandSetup a c d n).map encode =
      setupWords (BitVec.ofNat 7 a) (BitVec.ofNat 8 c) (BitVec.ofNat 8 d) (BitVec.ofNat 8 n) :=
  rfl

theorem map_encode_crcAcc_ofNat (bs : List Nat) :
    (bs.map fun b => Instr.crcAcc (u8 b)).map encode =
      bs.map fun b => encode (.crcAcc (BitVec.ofNat 8 b)) :=
  List.map_map

/-- `V_FRAME`'s words for numbers of any size. -/
theorem map_encode_expandFrame_ofNat (rs : List Nat) :
    (expandFrame rs).map encode = frameWords (rs.map (BitVec.ofNat 8)) := by
  simp only [expandFrame, frameWords, u8, List.map_cons, List.map_append, List.map_map,
    List.map_nil]
  rfl

/-- R66's check where R67 writes `b0, ..., bk`. -/
theorem operandsFit_bytes_iff {m : Mnemonic} (hm : m = .crcBytes ∨ m = .vFrame) (bs : List Nat) :
    operandsFit m bs = true ↔ bs ≠ [] ∧ ∀ b ∈ bs, b ≤ 255 := by
  cases bs with
  | nil => obtain rfl | rfl := hm <;> exact iff_of_false Bool.false_ne_true fun h => h.1 rfl
  | cons b bs =>
    rw [and_iff_right (List.cons_ne_nil b bs), ← all_fitsU8_iff]
    obtain rfl | rfl := hm <;> rfl

/-- R66's check of `V_SETUP`'s operands. -/
theorem operandsFit_vSetup_iff (a c d n : Nat) :
    operandsFit .vSetup [a, c, d, n] = true ↔ a ≤ 127 ∧ c ≤ 255 ∧ d ≤ 255 ∧ n ≤ 255 := by
  rw [operandsFit, Bool.and_eq_true, fitsU7_iff, all_fitsU8_iff]
  simp only [List.forall_mem_cons, List.not_mem_nil, false_imp_iff, implies_true, and_true]

/-- R66's check of `VALIDATE`'s operands. -/
theorem operandsFit_validate_iff (a c d n : Nat) (rs : List Nat) :
    operandsFit .validate (a :: c :: d :: n :: rs) = true ↔
      a ≤ 127 ∧ c ≤ 255 ∧ d ≤ 255 ∧ n ≤ 255 ∧ rs ≠ [] ∧ ∀ r ∈ rs, r ≤ 255 := by
  cases rs with
  | nil => exact iff_of_false Bool.false_ne_true fun ⟨_, _, _, _, hne, _⟩ => hne rfl
  | cons r rs =>
    rw [operandsFit, Bool.and_eq_true, fitsU7_iff, all_fitsU8_iff, List.forall_mem_cons,
      List.forall_mem_cons, List.forall_mem_cons, ne_eq, and_iff_right (List.cons_ne_nil r rs)]

/-- Settles O7: the check of each pseudo-instruction's operand list, and its expansion. -/
theorem pseudoOperandsMustFit : Obligations.PseudoOperandsMustFit := by
  refine ⟨fun ops => ?_, fun bs => ?_, fun ops => ?_, fun rs => ?_, fun ops => ?_⟩
  · cases ops <;> rfl
  · exact assemble_eq_ite (operandsFit_bytes_iff (.inl rfl) bs) (map_encode_crcAcc_ofNat bs)
  · match ops with
    | [] | [_] | [_, _] | [_, _, _] | _ :: _ :: _ :: _ :: _ :: _ => rfl
    | [a, c, d, n] =>
      exact assemble_eq_ite (operandsFit_vSetup_iff a c d n) (map_encode_expandSetup_ofNat a c d n)
  · exact assemble_eq_ite (operandsFit_bytes_iff (.inr rfl) rs) (map_encode_expandFrame_ofNat rs)
  · match ops with
    | [] | [_] | [_, _] | [_, _, _] => rfl
    | a :: c :: d :: n :: rs =>
      exact assemble_eq_ite (operandsFit_validate_iff a c d n rs) (List.map_append.trans
        (congrArg₂ _ (map_encode_expandSetup_ofNat a c d n) (map_encode_expandFrame_ofNat rs)))

end Sys2Proof.Proofs
end

section
/-! PROOFS of the statements on who writes and reads each register (10_state.md R20, R31, R37), from
what a command can do: the effect of R171, or its own. -/

namespace Sys2Proof.Proofs

open Sys2Proof.Machine Sys2Proof.Safety Sys2Proof.Laws

/-! ## What a command can do -/

/-- The register writes of a command that is legal in its state. The reserved row, illegal in every
state, has none. -/
def legalEffect (i : Instr) (s : State) : State :=
  match i with
  | .reserved _ => s
  | .tblRd idx => respond (tableRead idx) s
  | .crcInit v => respond v { s with crc := v }
  | .crcAcc b => respond (foldByte s b) { s with crc := foldByte s b }
  | .crcRd => respond s.crc s
  | .setAddr a => respond (a.setWidth 8) { s with daddr := a }
  | .setCmd c => respond c { s with cmd := c }
  | .setDlen d => respond d { s with dlen := d }
  | .setBcnt n => respond n { s with bcnt := n }
  | .vBegin => beginValidation s
  | .vPush b => pushByte b s
  | .vEnd => respond (statusByte (closeValidation s)) (closeValidation s)
  | .rdStatus => respond (statusByte s) s
  | .rdExp => respond s.exp s
  | .rdAct => respond s.act s
  | .rdEcause => respond s.ecause s

theorem exec_of_legal {i : Instr} {s : State} (h : illegalInState i s.vst = none) :
    exec i s = .next (legalEffect i s) := by
  cases hv : s.vst with
  | idle =>
    rw [hv] at h
    cases i
    case reserved | vPush | vEnd => cases h
    case crcInit | crcAcc | setAddr | setCmd | setDlen | setBcnt => exact whileIdle_of_idle hv _
    all_goals rfl
  | collect =>
    rw [hv] at h
    cases i
    case reserved | crcInit | crcAcc | setAddr | setCmd | setDlen | setBcnt => cases h
    case vPush | vEnd => exact whileOpen_of_collect hv _
    all_goals rfl

/-- Everything a command can do: be illegal in the state, or have its own effect. -/
theorem exec_cases {i : Instr} {s t : State} (h : exec i s = .next t) :
    (∃ c, illegalInState i s.vst = some c ∧ t = takeIllegal c s) ∨
    (illegalInState i s.vst = none ∧ t = legalEffect i s) := by
  cases hc : illegalInState i s.vst with
  | some c => cases (exec_of_illegalInState hc).symm.trans h; exact .inl ⟨c, rfl, rfl⟩
  | none => cases (exec_of_legal hc).symm.trans h; exact .inr ⟨rfl, rfl⟩

/-- Everything a word can do: be illegal in the state, or have its command's effect. -/
theorem issue_cases {w : CmdWord} {s t : State} (h : issue w s = .next t) :
    (∃ c, illegalCause w s = some c ∧ t = takeIllegal c s) ∨
    (∃ i, decode w = .command i ∧ illegalInState i s.vst = none ∧ t = legalEffect i s) := by
  cases hc : illegalCause w s with
  | some c => cases (issue_of_illegalCause hc).symm.trans h; exact .inl ⟨c, rfl, rfl⟩
  | none =>
    obtain ⟨i, hd, hl⟩ := command_of_illegalCause_eq_none hc
    rw [issue_of_command hd, exec_of_legal hl] at h
    cases h
    exact .inr ⟨i, hd, hl, rfl⟩

/-! ## The "written by" column (R20) -/

/-- The effect of R171 on any register but the two it writes. -/
theorem regValue_takeIllegal {r : Reg} (hecause : r ≠ .ecause) (hrdata : r ≠ .rdata) (c : Cause)
    (s : State) : regValue r (takeIllegal c s) = regValue r s := by
  cases r
  case ecause => exact absurd rfl hecause
  case rdata => exact absurd rfl hrdata
  all_goals rfl

/-- A command that can be illegal is a writer of ECAUSE. -/
theorem writes_ecause_of_illegalInState {i : Instr} {v : Vst} {c : Cause}
    (h : illegalInState i v = some c) : writes i .ecause = true := by
  cases i <;> cases v <;> cases h <;> rfl

theorem writes_rdata (i : Instr) : writes i .rdata = true := by
  cases i <;> rfl

/-- The two tables agree, entry by entry: an effect writes only the registers of its row. -/
theorem regValue_legalEffect_of_not_writes {i : Instr} {r : Reg} (h : writes i r = false)
    (s : State) : regValue r (legalEffect i s) = regValue r s := by
  cases i <;> cases r <;> cases h <;> rfl

/-- Settles O35: an illegal command writes ECAUSE and RDATA only, and can be illegal only if it is a
writer of ECAUSE; a legal one writes its row's registers. -/
theorem registersWrittenOnlyByTheirCommands :
    Obligations.RegistersWrittenOnlyByTheirCommands := by
  refine ⟨fun i s t r h hw => ?_, fun w c s t r hd h hecause hrdata => ?_⟩
  · obtain ⟨c, hc, rfl⟩ | ⟨-, rfl⟩ := exec_cases h
    · refine regValue_takeIllegal ?_ ?_ c s <;> rintro rfl
      · cases hw.symm.trans (writes_ecause_of_illegalInState hc)
      · cases hw.symm.trans (writes_rdata i)
    · exact regValue_legalEffect_of_not_writes hw s
  · cases (issue_of_illegal hd s).symm.trans h
    exact regValue_takeIllegal hecause hrdata c s

/-! ## The "read by" column (R20) -/

/-- The state `s` with the register `r` as `u` holds it. -/
def withReg (r : Reg) (u s : State) : State :=
  match r with
  | .crc => { s with crc := u.crc }
  | .daddr => { s with daddr := u.daddr }
  | .cmd => { s with cmd := u.cmd }
  | .dlen => { s with dlen := u.dlen }
  | .bcnt => { s with bcnt := u.bcnt }
  | .vst => { s with vst := u.vst }
  | .pend => { s with pend := u.pend }
  | .rcnt => { s with rcnt := u.rcnt }
  | .code => { s with code := u.code }
  | .exp => { s with exp := u.exp }
  | .act => { s with act := u.act }
  | .ecause => { s with ecause := u.ecause }
  | .rdata => { s with rdata := u.rdata }

theorem regValue_withReg (q r : Reg) (u s : State) :
    regValue q (withReg r u s) = if q = r then regValue q u else regValue q s := by
  cases r <;> cases q <;> rfl

theorem vstBit_injective {v v' : Vst} (h : (vstBit v).toNat = (vstBit v').toNat) : v = v' := by
  cases v <;> cases v' <;> cases h <;> rfl

/-- A state is the registers of R20 and what the host does next. -/
theorem state_ext_regValue {s t : State} (h : ∀ r, regValue r s = regValue r t)
    (hin : s.inputs = t.inputs) : s = t := by
  cases s
  cases t
  simp only [State.mk.injEq]
  exact ⟨BitVec.eq_of_toNat_eq (h .crc), BitVec.eq_of_toNat_eq (h .daddr),
    BitVec.eq_of_toNat_eq (h .cmd), BitVec.eq_of_toNat_eq (h .dlen),
    BitVec.eq_of_toNat_eq (h .bcnt), vstBit_injective (h .vst), BitVec.eq_of_toNat_eq (h .pend),
    BitVec.eq_of_toNat_eq (h .rcnt), BitVec.eq_of_toNat_eq (h .code),
    BitVec.eq_of_toNat_eq (h .exp), BitVec.eq_of_toNat_eq (h .act),
    BitVec.eq_of_toNat_eq (h .ecause), BitVec.eq_of_toNat_eq (h .rdata), hin⟩

theorem withReg_inputs (r : Reg) (u s : State) : (withReg r u s).inputs = s.inputs := by
  cases r <;> rfl

theorem agreeExcept_refl (r : Reg) (s : State) : AgreeExcept r s s := ⟨fun _ _ => rfl, rfl⟩

theorem agreeExcept_withReg (r : Reg) (u s : State) : AgreeExcept r s (withReg r u s) :=
  ⟨fun q hq => ((regValue_withReg q r u s).trans (if_neg hq)).symm, (withReg_inputs r u s).symm⟩

/-- Two states that differ at most in a register are one with that register replaced. -/
theorem eq_withReg_of_agreeExcept {r : Reg} {s s' : State} (h : AgreeExcept r s s') :
    s' = withReg r s' s := by
  obtain ⟨hregs, hin⟩ := h
  refine state_ext_regValue (fun q => ?_) (by rw [withReg_inputs, hin])
  rw [regValue_withReg]
  split
  · rfl
  · next hq => exact (hregs q hq).symm

/-- The registers an effect replaces: those of its row, but ECAUSE, which only an illegal command
writes. -/
def replaces (i : Instr) (r : Reg) : Bool := writes i r && r != .ecause

theorem regValue_legalEffect_of_not_replaces {i : Instr} {s : State}
    (hl : illegalInState i s.vst = none) {r : Reg} (h : replaces i r = false) :
    regValue r (legalEffect i s) = regValue r s := by
  by_cases hr : r = .ecause
  · subst hr
    exact congrArg BitVec.toNat (exec_ecause_of_legal hl (exec_of_legal hl))
  · have hne : (r != .ecause) = true := bne_iff_ne.mpr hr
    rw [replaces, hne, Bool.and_true] at h
    exact regValue_legalEffect_of_not_writes h s

/-- A register the effect replaces and the command does not read: what it held is lost. -/
theorem legalEffect_withReg_of_replaces {i : Instr} {r : Reg} (hread : reads i r = false)
    (hrep : replaces i r = true) {s : State} (hl : illegalInState i s.vst = none) (u : State) :
    legalEffect i (withReg r u s) = legalEffect i s := by
  cases i
  case reserved => cases hl
  all_goals cases r <;> cases hread <;> cases hrep <;> rfl

/-- A register the command neither reads nor replaces: the effect stands beside it. -/
theorem legalEffect_withReg_of_not_replaces {i : Instr} {r : Reg} (hread : reads i r = false)
    (hrep : replaces i r = false) (u s : State) :
    legalEffect i (withReg r u s) = withReg r u (legalEffect i s) := by
  cases i <;> cases r <;> cases hread <;> cases hrep <;> rfl

/-- The validator's state is read by every command, so it agrees. -/
theorem vst_eq_of_agreeExcept {i : Instr} {r : Reg} (hread : reads i r = false) {s s' : State}
    (h : AgreeExcept r s s') : s.vst = s'.vst := by
  have hne : Reg.vst ≠ r := by
    rintro rfl
    cases i <;> cases hread
  obtain ⟨hregs, -⟩ := h
  exact vstBit_injective (hregs .vst hne)

/-- The effect of R171 makes nothing of a difference in one register. -/
theorem agreeExcept_takeIllegal (c : Cause) {r : Reg} {s s' : State} (h : AgreeExcept r s s') :
    AgreeExcept r (takeIllegal c s) (takeIllegal c s') := by
  obtain ⟨hregs, hin⟩ := h
  refine ⟨fun q hq => ?_, hin⟩
  by_cases hrdata : q = .rdata
  · rw [hrdata]; rfl
  by_cases hecause : q = .ecause
  · have heq : s.ecause = s'.ecause := BitVec.eq_of_toNat_eq (hregs .ecause (hecause ▸ hq))
    rw [hecause, regValue, regValue, takeIllegal_ecause, takeIllegal_ecause, heq]
  · rw [regValue_takeIllegal hecause hrdata, regValue_takeIllegal hecause hrdata, hregs q hq]

/-- Settles O36: an illegal command reads ECAUSE alone, and a legal one's effect either replaces the
unread register or stands beside it. -/
theorem registersReadOnlyByTheirCommands : Obligations.RegistersReadOnlyByTheirCommands := by
  intro i r s s' t t' hread hagree h h'
  have hvst := vst_eq_of_agreeExcept hread hagree
  cases hc : illegalInState i s.vst with
  | some c =>
    cases (exec_of_illegalInState hc).symm.trans h
    cases (exec_of_illegalInState (hvst ▸ hc)).symm.trans h'
    refine ⟨agreeExcept_takeIllegal c hagree, fun hself => ?_⟩
    have hecause : r ≠ .ecause := hself.resolve_right (Option.some_ne_none c)
    by_cases hrdata : r = .rdata
    · exact .inl (hrdata ▸ rfl)
    · exact .inr ⟨regValue_takeIllegal hecause hrdata c s, regValue_takeIllegal hecause hrdata c s'⟩
  | none =>
    have hc' : illegalInState i s'.vst = none := hvst ▸ hc
    cases (exec_of_legal hc).symm.trans h
    cases (exec_of_legal hc').symm.trans h'
    have hs' := eq_withReg_of_agreeExcept hagree
    cases hrep : replaces i r with
    | true =>
      have hsame : legalEffect i s' = legalEffect i s := by
        rw [hs', legalEffect_withReg_of_replaces hread hrep hc]
      rw [hsame]
      exact ⟨agreeExcept_refl r _, fun _ => .inl rfl⟩
    | false =>
      refine ⟨?_, fun _ => .inr ⟨regValue_legalEffect_of_not_replaces hc hrep,
        regValue_legalEffect_of_not_replaces hc' hrep⟩⟩
      rw [hs', legalEffect_withReg_of_not_replaces hread hrep]
      exact agreeExcept_withReg r s' _

/-! ## PEND is hidden until the result (R37) -/

/-- No response but V_END's is computed from PEND. -/
theorem legalEffect_rdata_with_pend {i : Instr} (hi : i ≠ .vEnd) (s : State) (v : Byte) :
    (legalEffect i { s with pend := v }).rdata = (legalEffect i s).rdata := by
  cases i
  case vEnd => exact absurd rfl hi
  all_goals rfl

/-- A result that compares PEND shows it (R33, R146). -/
theorem resultByte_of_code {s : State} (h : resultCode s = codeValid ∨ resultCode s = codeMismatch)
    (v : Byte) : resultByte s v = v := by
  obtain ⟨-, hk, -⟩ | ⟨-, -, hk, -⟩ | ⟨-, -, -, hv⟩ := closeValidation_cases s
  · exact absurd (hk ▸ h) (by decide)
  · exact absurd (hk ▸ h) (by decide)
  · exact hv v

/-- Settles O37: legality does not depend on PEND, nor does the response of a legal command but
V_END's; a compared PEND is ACT. -/
theorem pendIsHiddenUntilTheResult : Obligations.PendIsHiddenUntilTheResult := by
  refine ⟨fun i s t t' v hi h h' => ?_, fun s t hs h hcode => ?_, fun s => rfl⟩
  · cases hc : illegalInState i s.vst with
    | some c =>
      cases (exec_of_illegalInState hc).symm.trans h
      cases (exec_of_illegalInState (s := { s with pend := v }) hc).symm.trans h'
      rfl
    | none =>
      cases (exec_of_legal hc).symm.trans h
      cases (exec_of_legal (s := { s with pend := v }) hc).symm.trans h'
      exact (legalEffect_rdata_with_pend hi s v).symm
  · cases (exec_vEnd_of_collect hs).symm.trans h
    exact resultByte_of_code hcode s.pend

/-! ## The fields of STATUS (R31) -/

/-- Where R31's formula puts its three parts. -/
theorem status_fields (e v : BitVec 1) (k : BitVec 3) :
    ((e.setWidth 8 <<< 7) ||| (v.setWidth 8 <<< 6) ||| k.setWidth 8 : Byte).extractLsb' 0 3 = k ∧
    ((e.setWidth 8 <<< 7) ||| (v.setWidth 8 <<< 6) ||| k.setWidth 8 : Byte).extractLsb' 3 3 = 0#3 ∧
    ((e.setWidth 8 <<< 7) ||| (v.setWidth 8 <<< 6) ||| k.setWidth 8 : Byte).getLsbD 6 =
      v.getLsbD 0 := by
  revert e v k; decide

theorem vstBit_getLsbD_zero (v : Vst) : (vstBit v).getLsbD 0 = true ↔ v = .collect := by
  cases v <;> decide

/-- Every result code is one of R31's. -/
theorem resultCode_le (s : State) : resultCode s ≤ 4 := by
  obtain ⟨-, hk, -⟩ | ⟨-, -, hk, -⟩ | ⟨-, -, hk, -⟩ := closeValidation_cases s <;> rw [hk]
  · decide
  · decide
  · split <;> decide

/-- Only V_BEGIN and V_END write CODE, and each one of R31's values. -/
theorem legalEffect_code_le {i : Instr} {s : State} (h : (legalEffect i s).code ≠ s.code) :
    (legalEffect i s).code ≤ 4 := by
  cases i
  case vBegin => exact (by decide : codeNone ≤ 4)
  case vEnd => exact resultCode_le s
  all_goals exact absurd rfl h

/-- Settles O38: the fields are where the formula puts them, and a CODE that changed is a written
one. -/
theorem statusByteLayout : Obligations.StatusByteLayout := by
  refine ⟨fun s => ?_, fun i s t h hne => ?_⟩
  · obtain ⟨hcode, hzero, hvst⟩ := status_fields (errBit s.ecause) (vstBit s.vst) s.code
    exact ⟨hcode, hzero, (Eq.congr_left hvst).trans (vstBit_getLsbD_zero s.vst),
      statusByte_getLsbD_seven s⟩
  · obtain ⟨c, -, rfl⟩ | ⟨-, rfl⟩ := exec_cases h
    · exact absurd (takeIllegal_code c s) hne
    · exact legalEffect_code_le hne

end Sys2Proof.Proofs
end

section
/-! PROOFS of the statements on steps (20_memory.md R48, 60_exceptions.md R184) and on the
invariants every step keeps (10_state.md R31 to R33, 42_frame_validator.md R144 to R146). -/

namespace Sys2Proof.Proofs

open Sys2Proof.Machine Sys2Proof.Safety Sys2Proof.Laws

/-! ## One step (R48) -/

/-- A word the host issues is performed by the very next step. -/
theorem step_offer (w : CmdWord) (s : State) : step (offer w s) = issue w s := rfl

theorem decode_of_decodeTableWord {nbits w : Nat} {i : Instr}
    (h : decodeTableWord nbits w = some i) : decode (tableWord nbits w) = .command i := by
  rw [decodeTableWord] at h
  cases hd : decode (tableWord nbits w) with
  | command j => rw [hd] at h; cases h; rfl
  | illegal c => rw [hd] at h; cases h

/-- Settles O44: a step accepts the oldest input, and accepting a word is issuing it. -/
theorem stepRunsDecodedInstruction : Obligations.StepRunsDecodedInstruction := by
  refine ⟨fun s w rest i hin hd => ?_, fun s w rest c hin hd => ?_, fun s nbits w i hd => ?_⟩
  · rw [step_of_cons hin, accept_command, issue_of_command hd]
  · rw [step_of_cons hin, accept_command, issue_of_illegal hd]
  · rw [State.withFetchWord, step_offer, issue_of_command (decode_of_decodeTableWord hd)]

/-- No command writes what the host does next. -/
theorem exec_inputs {i : Instr} {s t : State} (h : exec i s = .next t) : t.inputs = s.inputs := by
  obtain ⟨c, -, rfl⟩ | ⟨-, rfl⟩ := exec_cases h
  · exact takeIllegal_inputs c s
  · cases i <;> rfl

/-- Settles O45: the input accepted is dropped by the step itself, and neither a command nor a reset
touches the others. -/
theorem stepTakesTheOldestInput : Obligations.StepTakesTheOldestInput := by
  refine ⟨fun s t h => ?_, fun s rest hin => ?_, fun s t h hin => ?_⟩
  · obtain ⟨hin, rfl⟩ | ⟨e, rest, hin, hcase⟩ := step_cases h
    · rw [hin, List.tail_nil]
    · rw [hin, List.tail_cons]
      obtain ⟨-, rfl⟩ | ⟨w, -, ⟨i, -, hexec⟩ | ⟨c, -, rfl⟩⟩ := hcase
      · exact applyReset_inputs _
      · exact exec_inputs hexec
      · exact takeIllegal_inputs c _
  · exact (step_of_cons hin).trans (accept_reset _)
  · cases (step_of_nil hin).symm.trans h
    rfl

/-! ## Every step answers (R171, R197) -/

theorem step_answers (s : State) : ∃ t, step s = .next t := by
  cases hin : s.inputs with
  | nil => exact ⟨s, step_of_nil hin⟩
  | cons e rest =>
    rw [step_of_cons hin]
    cases e with
    | command w => exact issue_answers w _
    | reset => exact ⟨_, accept_reset _⟩

/-- Settles O46: a run stops only at a step that is no next state, and there is none. -/
theorem noRunEndsInAFault : Obligations.NoRunEndsInAFault := by
  intro k
  induction k with
  | zero => exact fun s => ⟨s, rfl⟩
  | succ k ih =>
    intro s
    obtain ⟨u, hu⟩ := step_answers s
    obtain ⟨t, ht⟩ := ih u
    exact ⟨t, (run_of_step core k s u hu).trans ht⟩

/-! ## What every step keeps -/

/-- A step keeps what does not speak of the host's inputs, holds after reset, and is kept by an
illegal command and by the effect of a legal one. -/
theorem step_keeps {P : State → Prop} (hinputs : ∀ s l, P s → P { s with inputs := l })
    (hreset : ∀ s, P (applyReset s)) (hillegal : ∀ c s, P s → P (takeIllegal c s))
    (heffect : ∀ i s, illegalInState i s.vst = none → P s → P (legalEffect i s))
    {s t : State} (hs : P s) (h : step s = .next t) : P t := by
  obtain ⟨-, rfl⟩ | ⟨e, rest, -, ⟨-, rfl⟩ | ⟨w, -, ⟨i, -, hexec⟩ | ⟨c, -, rfl⟩⟩⟩ := step_cases h
  · exact hs
  · exact hreset _
  · have hrest := hinputs s rest hs
    obtain ⟨c, -, rfl⟩ | ⟨hl, rfl⟩ := exec_cases hexec
    · exact hillegal c _ hrest
    · exact heffect i _ hl hrest
  · exact hillegal c _ (hinputs s rest hs)

/-- Every cause is one of R172's numbers. -/
theorem causeCode_le (c : Cause) : causeCode c ≤ 6 := by
  cases c <;> decide

/-- Settles O48: a legal command keeps ECAUSE and writes only R31's codes, an illegal one keeps CODE
and records only R172's causes. -/
theorem stepKeepsLegalCodes : Obligations.StepKeepsLegalCodes := by
  intro s t hs h
  refine step_keeps (P := LegalCodes) (fun s l hs => hs) (fun s => ?_) (fun c s hs => ?_)
    (fun i s hl hs => ?_) hs h
  · exact ⟨(by decide : codeNone ≤ 4), (by decide : (0x00 : Byte) ≤ 6)⟩
  · obtain ⟨hcode, hecause⟩ := hs
    refine ⟨hcode, ?_⟩
    rw [takeIllegal_ecause]
    split
    · exact causeCode_le c
    · exact hecause
  · obtain ⟨hcode, hecause⟩ := hs
    refine ⟨?_, by rwa [exec_ecause_of_legal hl (exec_of_legal hl)]⟩
    by_cases hne : (legalEffect i s).code = s.code
    · rwa [hne]
    · exact legalEffect_code_le hne

/-- RCNT after a push is never 0, and it is below 2 only after the first. -/
theorem countPush_ne_zero (n : Byte) : countPush n ≠ 0 := by
  revert n; decide

theorem eq_zero_of_countPush_lt_two {n : Byte} (h : countPush n < 2) : n = 0 := by
  revert n; decide

/-- V_BEGIN opens a validation in the invariant's form. -/
theorem openValidation_beginValidation (s : State) : OpenValidation (beginValidation s) :=
  fun _ => ⟨rfl, rfl, rfl, fun _ => rfl, fun _ => rfl⟩

/-- A push keeps the open validation's form: the first one leaves the header's CRC. -/
theorem openValidation_pushByte (b : Byte) {s : State} (h : OpenValidation s) :
    OpenValidation (pushByte b s) := by
  intro hv
  obtain ⟨hcode, hexp, hact, -, hcrc⟩ := h hv
  refine ⟨hcode, hexp, hact, fun h0 => absurd h0 (countPush_ne_zero s.rcnt), fun h2 => ?_⟩
  have hr : s.rcnt = 0 := eq_zero_of_countPush_lt_two h2
  rw [pushByte_crc, if_neg (by rw [hr]; decide)]
  exact hcrc (by rw [hr]; decide)

theorem openValidation_legalEffect {i : Instr} {s : State} (hl : illegalInState i s.vst = none)
    (h : OpenValidation s) : OpenValidation (legalEffect i s) := by
  cases i
  case crcInit | crcAcc | setAddr | setCmd | setDlen | setBcnt =>
    intro (hv : s.vst = .collect)
    rw [hv] at hl
    cases hl
  case vBegin => exact openValidation_beginValidation s
  case vPush b => exact openValidation_pushByte b h
  case vEnd => exact nofun
  all_goals exact h

/-- Settles O49: while a validation is open only V_BEGIN, V_PUSH and the reads are legal. -/
theorem stepKeepsOpenValidation : Obligations.StepKeepsOpenValidation := by
  intro s t hs h
  exact step_keeps (P := OpenValidation) (fun _ _ hs => hs) (fun _ => nofun) (fun _ _ hs => hs)
    (fun _ _ hl hs => openValidation_legalEffect hl hs) hs h

/-- Result registers that hold no result. -/
theorem resultRegisters_of_none {s : State} (hcode : s.code = codeNone) (hexp : s.exp = 0x00)
    (hact : s.act = 0x00) : ResultRegisters s := by
  refine ⟨fun _ => ⟨hexp, hact⟩, fun _ => hexp.trans hact.symm, fun h => ?_⟩
  exact absurd (hcode.symm.trans h) (by decide)

/-- V_END's result is in agreement with its code, whatever it finds (R146). -/
theorem resultRegisters_closeValidation (s : State) : ResultRegisters (closeValidation s) := by
  unfold ResultRegisters
  rw [closeValidation_code, closeValidation_exp, closeValidation_act]
  obtain ⟨-, hk, hv⟩ | ⟨-, -, hk, hv⟩ | ⟨-, -, hk, hv⟩ := closeValidation_cases s <;>
    rw [hk, hv, hv]
  · decide
  · decide
  · split
    · next he =>
      exact ⟨fun h => absurd h (by decide), fun _ => he, fun h => absurd h (by decide)⟩
    · next he =>
      exact ⟨fun h => absurd h (by decide), fun h => absurd h (by decide), fun _ => he⟩

theorem resultRegisters_legalEffect (i : Instr) {s : State} (h : ResultRegisters s) :
    ResultRegisters (legalEffect i s) := by
  cases i
  case vBegin => exact resultRegisters_of_none rfl rfl rfl
  case vEnd => exact resultRegisters_closeValidation s
  all_goals exact h

/-- Settles O50: only a reset, V_BEGIN and V_END write the result registers. -/
theorem stepKeepsResultRegisters : Obligations.StepKeepsResultRegisters := by
  intro s t hs h
  exact step_keeps (P := ResultRegisters) (fun _ _ hs => hs)
    (fun _ => resultRegisters_of_none rfl rfl rfl) (fun _ _ hs => hs)
    (fun i _ _ hs => resultRegisters_legalEffect i hs) hs h

/-- Settles O51: after reset there is no result, no cause and no open validation. -/
theorem resetMeetsTheInvariants : Obligations.ResetMeetsTheInvariants :=
  ⟨⟨(by decide : codeNone ≤ 4), (by decide : (0x00 : Byte) ≤ 6)⟩, nofun,
    resultRegisters_of_none rfl rfl rfl⟩

end Sys2Proof.Proofs
end

section
/-! PROOFS of the statements on the pure functions: the table (40_table_generator.md R83), the laws
of accumulation (41_accumulator.md R102, R103) and the frame with one byte changed
(42_frame_validator.md R128). -/

namespace Sys2Proof.Proofs

open Sys2Proof.Machine Sys2Proof.Safety Sys2Proof.Laws

/-! ## The table (R83) -/

/-- A round shifts, and folds the polynomial in by the bit shifted out. -/
theorem genRound_eq_xor (b : Byte) :
    genRound b = (b <<< 1) ^^^ (if b.getLsbD 7 = true then polynomial else 0x00) := by
  rw [genRound]
  split
  · rfl
  · exact BitVec.xor_zero.symm

/-- The polynomial is folded in once or not at all, as the bits differ or agree. -/
theorem fold_xor (p q : Bool) :
    (if (p ^^ q) = true then polynomial else 0x00) =
      (if p = true then polynomial else 0x00) ^^^ (if q = true then polynomial else 0x00) := by
  cases p <;> cases q <;> decide

theorem genRound_xor (a b : Byte) : genRound (a ^^^ b) = genRound a ^^^ genRound b := by
  simp only [genRound_eq_xor, BitVec.getLsbD_xor, BitVec.shiftLeft_xor_distrib, fold_xor]
  ac_rfl

theorem genTable_xor (a b : Byte) : genTable (a ^^^ b) = genTable a ^^^ genTable b := by
  simp only [genTable, genRound_xor]

theorem genTable_eq_self_iff : ∀ x : Byte, genTable x = x ↔ x = 0x00 ∨ x = 0xFD := by decide

theorem genTable_eq_zero_iff : ∀ x : Byte, genTable x = 0x00 ↔ x = 0x00 := by decide

/-- A linear map that is zero only at zero is injective. -/
theorem genTable_injective : Function.Injective genTable := by
  intro a b h
  have hzero : genTable (a ^^^ b) = 0x00 := by
    rw [genTable_xor, h]
    exact BitVec.xor_self
  exact BitVec.xor_eq_zero_iff.mp ((genTable_eq_zero_iff _).mp hzero)

/-- Settles O8: linearity round by round, the zeros and the fixed points by reading the 256 entries,
and the bijection from linearity and the one zero. -/
theorem tableIsLinearPermutation : Obligations.TableIsLinearPermutation := by
  have htable : tableRead = genTable := funext tableRead_eq_genTable
  rw [Obligations.TableIsLinearPermutation, htable]
  exact ⟨genTable_eq_self_iff, genTable_xor, Finite.injective_iff_bijective.mp genTable_injective,
    genTable_eq_zero_iff, by decide, by decide, genTable_FF⟩

/-! ## Accumulation (R102, R103) -/

/-- The table is read at index 0 where a byte meets itself. -/
theorem genTable_xor_self (b : Byte) : genTable (b ^^^ b) = 0x00 := by
  rw [genTable_xor]
  exact BitVec.xor_self

/-- A sequence followed by its own CRC accumulates to zero. -/
theorem accumulate_own_crc (c : Byte) (xs : List Byte) :
    accumulate c (xs ++ [accumulate c xs]) = 0x00 := by
  rw [accumulate_concat, genTable_xor_self]

theorem accumulate_zeros (n : Nat) : accumulate 0x00 (List.replicate n 0x00) = 0x00 := by
  induction n with
  | zero => rfl
  | succ n ih => rw [List.replicate_succ, accumulate_cons, genTable_xor_self, ih]

/-- Accumulation is linear in the seed and the bytes together. -/
theorem accumulate_xor (c c' : Byte) (xs ys : List Byte) (h : xs.length = ys.length) :
    accumulate c xs ^^^ accumulate c' ys =
      accumulate (c ^^^ c') (List.zipWith (· ^^^ ·) xs ys) := by
  induction xs generalizing c c' ys with
  | nil => cases List.eq_nil_of_length_eq_zero h.symm; rfl
  | cons x xs ih =>
    cases ys with
    | nil => cases h
    | cons y ys =>
      have hstep : genTable (c ^^^ x) ^^^ genTable (c' ^^^ y) =
          genTable ((c ^^^ c') ^^^ (x ^^^ y)) := by
        rw [← genTable_xor]
        ac_rfl
      rw [accumulate_cons, accumulate_cons, ih _ _ ys (Nat.succ.inj h), hstep,
        List.zipWith_cons_cons, accumulate_cons]

/-- The bit-serial form: the table's entry is eight rounds. -/
theorem accumulate_eq_foldl (c : Byte) (bs : List Byte) :
    accumulate c bs = bs.foldl (fun crc b => (genRound^[8]) (crc ^^^ b)) c := by
  induction bs generalizing c with
  | nil => rfl
  | cons b bs ih => rw [accumulate_cons, List.foldl_cons, ih]; rfl

/-- Settles O9: concatenation and the bitwise form by induction, the others from the table's
linearity and its entry 0. -/
theorem accumulationLaws : Obligations.AccumulationLaws := by
  refine ⟨accumulate_nil, accumulate_append, accumulate_own_crc, accumulate_zeros,
    fun c xs ys h => ?_, accumulate_eq_foldl⟩
  rw [accumulate_xor c c xs ys h, BitVec.xor_self]
  rfl

/-! ## One byte changed (R128) -/

theorem accumulate_left_injective (bs : List Byte) : Function.Injective (accumulate · bs) := by
  induction bs with
  | nil => exact fun _ _ h => h
  | cons b bs ih =>
    intro c c' h
    simp only [accumulate_cons] at h
    exact (BitVec.xor_left_inj b).mp (genTable_injective (ih h))

/-- A byte changed changes the accumulation, whatever follows it. -/
theorem accumulate_set_ne {xs : List Byte} {k : Nat} {b : Byte} (hk : k < xs.length)
    (hb : xs[k]? ≠ some b) (c : Byte) : accumulate c (xs.set k b) ≠ accumulate c xs := by
  induction xs generalizing c k with
  | nil => cases hk
  | cons x xs ih =>
    cases k with
    | zero =>
      rw [List.set_cons_zero, accumulate_cons, accumulate_cons]
      intro h
      have hindex := genTable_injective (accumulate_left_injective xs h)
      exact hb (congrArg some ((BitVec.xor_right_inj c).mp hindex).symm)
    | succ k =>
      rw [List.set_cons_succ, accumulate_cons, accumulate_cons]
      exact ih (Nat.lt_of_succ_lt_succ hk) hb _

/-! The address stands in the header twice, so its change is two bytes changed alike. -/

theorem writeAddrByte_xor (a a' : Addr7) :
    writeAddrByte a' ^^^ writeAddrByte a = writeAddrByte (a' ^^^ a) := by
  simp only [writeAddrByte, BitVec.ofNat_eq_ofNat, BitVec.or_zero, BitVec.setWidth_xor,
    BitVec.shiftLeft_xor_distrib]

theorem readAddrByte_eq_xor_one (a : Addr7) : readAddrByte a = writeAddrByte a ^^^ 0x01 := by
  revert a; decide

theorem readAddrByte_xor (a a' : Addr7) :
    readAddrByte a' ^^^ readAddrByte a = writeAddrByte (a' ^^^ a) := by
  rw [readAddrByte_eq_xor_one, readAddrByte_eq_xor_one, ← writeAddrByte_xor]
  have hone : (0x01 : Byte) ^^^ 0x01 = 0x00 := by decide
  calc (writeAddrByte a' ^^^ 0x01) ^^^ (writeAddrByte a ^^^ 0x01)
      = (writeAddrByte a' ^^^ writeAddrByte a) ^^^ ((0x01 : Byte) ^^^ 0x01) := by ac_rfl
    _ = writeAddrByte a' ^^^ writeAddrByte a := by rw [hone]; exact BitVec.xor_zero

/-- No change of the address leaves the header's accumulation as it was: checked for the 127
differences of two addresses. -/
theorem accumulate_addr_difference_ne : ∀ a : Addr7, a ≠ 0x00 →
    accumulate 0x00 [writeAddrByte a, 0x00, 0x00, 0x00, writeAddrByte a] ≠ 0x00 := by
  decide

theorem accumulate_header_addr_ne {a a' : Addr7} (h : a' ≠ a) (c d n : Byte) :
    accumulate pecSeed (headerBytes a' c d n) ≠ accumulate pecSeed (headerBytes a c d n) := by
  intro heq
  have hxor := accumulate_xor pecSeed pecSeed (headerBytes a' c d n) (headerBytes a c d n) rfl
  rw [heq] at hxor
  simp only [headerBytes, List.zipWith_cons_cons, List.zipWith_nil_left, writeAddrByte_xor,
    readAddrByte_xor, BitVec.xor_self] at hxor
  have hne : a' ^^^ a ≠ 0x00 := fun h0 => h (BitVec.xor_eq_zero_iff.mp h0)
  exact accumulate_addr_difference_ne _ hne hxor.symm

/-- One of the frame's parameters differs, a byte count within its range (R128). -/
def OneParameterChanged (a a' : Addr7) (c c' d d' n n' : Byte) : Prop :=
  (a' ≠ a ∧ c' = c ∧ d' = d ∧ n' = n) ∨ (a' = a ∧ c' ≠ c ∧ d' = d ∧ n' = n) ∨
  (a' = a ∧ c' = c ∧ d' ≠ d ∧ n' = n) ∨
  (a' = a ∧ c' = c ∧ d' = d ∧ n' ≠ n ∧ 1 ≤ n'.toNat ∧ n'.toNat ≤ 8)

/-- One parameter changed changes the header's accumulation. -/
theorem accumulate_header_ne {a a' : Addr7} {c c' d d' n n' : Byte}
    (h : OneParameterChanged a a' c c' d d' n n') :
    accumulate pecSeed (headerBytes a' c' d' n') ≠ accumulate pecSeed (headerBytes a c d n) := by
  have hset (k : Nat) (b : Byte) (hk : k < 5) (hb : (headerBytes a c d n)[k]? ≠ some b) :=
    accumulate_set_ne (xs := headerBytes a c d n) hk hb pecSeed
  obtain ⟨ha, rfl, rfl, rfl⟩ | ⟨rfl, hc, rfl, rfl⟩ | ⟨rfl, rfl, hd, rfl⟩ |
    ⟨rfl, rfl, rfl, hn, -⟩ := h
  · exact accumulate_header_addr_ne ha c' d' n'
  · exact hset 1 c' (by decide) fun hsame => hc (Option.some.inj hsame).symm
  · exact hset 2 d' (by decide) fun hsame => hd (Option.some.inj hsame).symm
  · exact hset 3 n' (by decide) fun hsame => hn (Option.some.inj hsame).symm

/-- The frame of the changed parameters is still built. -/
theorem badByteCount_of_oneParameterChanged {a a' : Addr7} {c c' d d' n n' : Byte}
    (hb : badByteCount n = false) (h : OneParameterChanged a a' c c' d d' n n') :
    badByteCount n' = false := by
  obtain ⟨-, -, -, rfl⟩ | ⟨-, -, -, rfl⟩ | ⟨-, -, -, rfl⟩ | ⟨-, -, -, -, hrange⟩ := h
  · exact hb
  · exact hb
  · exact hb
  · exact (badByteCount_eq_false_iff n').mpr hrange

/-- The premises of VALID: both checks passed, and the last byte is the PEC (R121). -/
theorem eq_concat_of_validate_eq_valid {a : Addr7} {c d n : Byte} {r : List Byte}
    (h : validate a c d n r = .valid) :
    badByteCount n = false ∧ ∃ xs, 1 ≤ xs.length ∧
      r = xs ++ [accumulate pecSeed (headerBytes a c d n ++ xs)] := by
  cases hb : badByteCount n with
  | true => cases (validate_of_bad hb a c d r).symm.trans h
  | false =>
    obtain hr | hr := Nat.lt_or_ge r.length 2
    · cases (validate_of_short hb hr a c d).symm.trans h
    · have hpec := (validate_eq_valid_iff_of_long hb hr a c d).mp h
      obtain rfl | ⟨xs, p, rfl⟩ := List.eq_nil_or_concat' r
      · cases hr
      · rw [List.dropLast_concat, List.getLastD_concat] at hpec
        rw [List.length_append] at hr
        exact ⟨rfl, xs, Nat.le_of_succ_le_succ hr, by rw [hpec]⟩

/-- The frame is the header and the response without its last byte. -/
theorem buildFrame_concat {n : Byte} (hb : badByteCount n = false) (a : Addr7) (c d : Byte)
    (xs : List Byte) (p : Byte) :
    buildFrame a c d n (xs ++ [p]) = some (headerBytes a c d n ++ xs) := by
  rw [buildFrame_of_good hb, List.dropLast_concat]

/-- A response whose last byte is not the frame's accumulation is a MISMATCH of the two. -/
theorem validate_concat_of_differ {n : Byte} (hb : badByteCount n = false) {xs : List Byte}
    (hxs : 1 ≤ xs.length) {a : Addr7} {c d p : Byte}
    (hp : accumulate pecSeed (headerBytes a c d n ++ xs) ≠ p) :
    validate a c d n (xs ++ [p]) =
      .mismatch (accumulate pecSeed (headerBytes a c d n ++ xs)) p := by
  have hlen : 2 ≤ (xs ++ [p]).length := by
    rw [List.length_append, List.length_singleton]
    omega
  rw [validate_of_long hb hlen, List.dropLast_concat, List.getLastD_concat, if_neg hp]

/-- Settles O12: a byte changed before the PEC changes the accumulation, by linearity for the
address and by injectivity for the others; the PEC itself is not accumulated. -/
theorem oneByteChangeIsAMismatch : Obligations.OneByteChangeIsAMismatch := by
  intro a c d n r hvalid
  obtain ⟨hb, xs, hxs, rfl⟩ := eq_concat_of_validate_eq_valid hvalid
  rw [List.getLastD_concat, List.dropLast_concat]
  refine ⟨fun k b hk hne => ?_, fun a' c' d' n' hchange => ?_, fun b hne => ?_⟩
  · rw [List.length_append] at hk
    have hk : k < xs.length := Nat.lt_of_succ_lt_succ hk
    rw [List.getElem?_append_left hk] at hne
    rw [List.set_append_left k b hk]
    have hdiffer : accumulate pecSeed (headerBytes a c d n ++ xs.set k b) ≠
        accumulate pecSeed (headerBytes a c d n ++ xs) := by
      rw [accumulate_append, accumulate_append]
      exact accumulate_set_ne hk hne _
    have hlen : 1 ≤ (xs.set k b).length := by rwa [List.length_set]
    exact ⟨_, buildFrame_concat hb .., validate_concat_of_differ hb hlen hdiffer, hdiffer⟩
  · have hb' := badByteCount_of_oneParameterChanged hb hchange
    have hdiffer : accumulate pecSeed (headerBytes a' c' d' n' ++ xs) ≠
        accumulate pecSeed (headerBytes a c d n ++ xs) := by
      rw [accumulate_append, accumulate_append]
      exact fun h => accumulate_header_ne hchange (accumulate_left_injective xs h)
    exact ⟨_, buildFrame_concat hb' .., validate_concat_of_differ hb' hxs hdiffer, hdiffer⟩
  · exact validate_concat_of_differ hb hxs hne.symm

end Sys2Proof.Proofs
end

section
/-! PROOFS of the statements on runs (70_reset_and_hazards.md R191, R192, R197): the run after a
reset, what it records, and the accumulator's and the unconfigured validation's runs. -/

namespace Sys2Proof.Proofs

open Sys2Proof.Machine Sys2Proof.Safety Sys2Proof.Laws

/-! ## The first words after reset (R191, R192) -/

/-- Settles O42: a reset keeps no register, so the step from power-up is the step to reset. -/
theorem resetForgetsPowerUp : Obligations.ResetForgetsPowerUp := fun ws k =>
  run_of_step core k _ _ (step_of_cons (s := .powerUp (.reset :: ws.map .command)) rfl)

/-- Settles O43: every word is answered from every state, and STATUS of the reset state is 0x00. -/
theorem afterResetEveryWordIsAccepted : Obligations.AfterResetEveryWordIsAccepted := by
  refine ⟨fun w => issue_answers w State.reset, ?_⟩
  have hread : issue 0xC000 State.reset = exec .rdStatus State.reset :=
    issue_of_command decodesNone_rdStatus.1 State.reset
  rw [hread, exec_rdStatus, statusByte_reset]

/-- Settles O32: each word fails its first decode check. -/
theorem firstFailingCheckGivesCause : Obligations.FirstFailingCheckGivesCause := by
  refine ⟨fun s h0 => ?_, fun s _ h0 => ?_⟩
  · have hdecode : decode 0x0100 = .command (.reserved 0x100) := by decide
    have hexec : exec (.reserved 0x100) s = .next (takeIllegal .rsvdOp s) := rfl
    rw [issue_of_command hdecode, hexec, takeIllegal_of_ecause_zero h0]
    rfl
  · have hdecode : decode 0xA100 = .illegal .rsvdField := by decide
    rw [issue_of_illegal hdecode, takeIllegal_of_ecause_zero h0]
    rfl

/-! ## What a run records (R197) -/

theorem responses_cons_of_issue {w : CmdWord} {s t : State} (h : issue w s = .next t)
    (ws : List CmdWord) : responses (w :: ws) s = t.rdata :: responses ws t := by
  rw [responses, h]

/-- A run answers once per word, and RDATA holds the last answer. -/
theorem runWords_responses (ws : List CmdWord) (s : State) :
    ∃ t, runWords ws s = .next t ∧ (responses ws s).length = ws.length ∧
      t.rdata = (responses ws s).getLastD s.rdata := by
  induction ws generalizing s with
  | nil => exact ⟨_, runWords_nil s, rfl, rfl⟩
  | cons w ws ih =>
    obtain ⟨u, hu⟩ := issue_answers w s
    obtain ⟨t, ht, hlen, hlast⟩ := ih u
    rw [runWords_cons_of_issue hu, responses_cons_of_issue hu, List.getLastD_cons]
    exact ⟨t, ht, congrArg Nat.succ hlen, hlast⟩

theorem causeCode_ne_zero (c : Cause) : causeCode c ≠ 0x00 := by
  cases c <;> decide

theorem firstCause_cons_of_illegal {w : CmdWord} {s : State} {c : Cause}
    (h : illegalCause w s = some c) (ws : List CmdWord) : firstCause (w :: ws) s = some c := by
  rw [firstCause, h]

/-- A run that starts without a recorded cause ends with the first illegal word's. -/
theorem runWords_ecause_of_eq_zero (ws : List CmdWord) {s t : State} (h0 : s.ecause = 0x00)
    (h : runWords ws s = .next t) : t.ecause = (firstCause ws s).elim 0x00 causeCode := by
  induction ws generalizing s with
  | nil => cases h; exact h0
  | cons w ws ih =>
    obtain ⟨u, hu⟩ := issue_answers w s
    rw [runWords_cons_of_issue hu] at h
    have hfirst := issue_ecause_of_eq_zero h0 hu
    cases hc : illegalCause w s with
    | none =>
      rw [hc] at hfirst
      rw [firstCause_cons_of_issue hc hu]
      exact ih hfirst h
    | some c =>
      rw [hc] at hfirst
      have hfirst : u.ecause = causeCode c := hfirst
      obtain ⟨v, hv, hkept⟩ := runWords_ecause_of_ne_zero ws u (hfirst ▸ causeCode_ne_zero c)
      cases hv.symm.trans h
      rw [firstCause_cons_of_illegal hc, hkept, hfirst]
      rfl

/-- Settles O47: the run from reset, with no cause recorded at its start. -/
theorem runRecordsFirstIllegalCause : Obligations.RunRecordsFirstIllegalCause := by
  intro ws
  obtain ⟨t, ht, hlen, hlast⟩ := runWords_responses ws State.reset
  have hecause := runWords_ecause_of_eq_zero ws (s := State.reset) rfl ht
  refine ⟨t, ht, hlen, hlast, ?_, ?_⟩
  · rw [hecause]
    cases firstCause ws State.reset <;> rfl
  · rw [noIllegalSinceReset, hecause]
    cases firstCause ws State.reset with
    | none => exact iff_of_true rfl rfl
    | some c => exact iff_of_false (causeCode_ne_zero c) (Option.some_ne_none c)

/-! ## The accumulator's run (R105, R106) -/

/-- The word of a command is performed by the command's rule. -/
theorem issue_encode (i : Instr) (s : State) : issue (encode i) s = exec i s :=
  issue_of_command (decode_encode i) s

/-- Settles O17: CRC_RD's row is of the none form, and its effect has no condition. -/
theorem crcRdAnswersAccumulator : Obligations.CrcRdAnswersAccumulator :=
  ⟨decodesNone_of_row (by decide) rfl rfl, fun _ => rfl⟩

/-- The whole effect of CRC_RD, in either validator state. -/
theorem exec_crcRd_of_crc {t : State} {c : Byte} (h : t.crc = c) :
    exec .crcRd t = .next { t with rdata := c } := by
  subst h
  rfl

/-- A run of CRC_ACC commands goes on accumulating from CRC. -/
theorem runWords_crcAcc (bs : List Byte) {s : State} (hs : s.vst = .idle) :
    ∃ t, runWords (bs.map fun b => encode (.crcAcc b)) s = .next t ∧
      t.crc = accumulate s.crc bs ∧ t.vst = .idle := by
  induction bs generalizing s with
  | nil => exact ⟨_, runWords_nil s, rfl, hs⟩
  | cons b bs ih =>
    have hissue := (issue_encode (.crcAcc b) s).trans (exec_crcAcc_of_idle b hs)
    rw [List.map_cons, runWords_cons_of_issue hissue, accumulate_cons]
    exact ih hs

/-- Settles O16: CRC_INIT loads the seed, and the run of CRC_ACC accumulates from it. -/
theorem accumulatorRunComputesAccumulate : Obligations.AccumulatorRunComputesAccumulate := by
  intro c bs s hs
  have hissue := (issue_encode (.crcInit c) s).trans (exec_crcInit_of_idle c hs)
  rw [runWords_cons_of_issue hissue]
  obtain ⟨t, ht, hcrc, hidle⟩ := runWords_crcAcc bs (s := { s with crc := c, rdata := c }) hs
  exact ⟨t, ht, hcrc, hidle, exec_crcRd_of_crc hcrc⟩

/-! ## A validation with no byte count set (R38, R146) -/

/-- Words that each keep a property of the state keep it together, and the run goes on. -/
theorem runWords_keeps {P : State → Prop} {ws : List CmdWord}
    (hkeep : ∀ w ∈ ws, ∀ s t, P s → issue w s = .next t → P t) {s : State} (hs : P s) :
    ∃ t, P t ∧ ∀ rest, runWords (ws ++ rest) s = runWords rest t := by
  induction ws generalizing s with
  | nil => exact ⟨s, hs, fun _ => rfl⟩
  | cons w ws ih =>
    obtain ⟨hw, hws⟩ := List.forall_mem_cons.mp hkeep
    obtain ⟨u, hu⟩ := issue_answers w s
    obtain ⟨t, ht, hrun⟩ := ih hws (hw s u hs hu)
    exact ⟨t, ht, fun rest => (runWords_cons_of_issue hu _).trans (hrun rest)⟩

/-- SET_BCNT is the only writer of BCNT. -/
theorem issue_bcnt {w : CmdWord} (hw : ∀ n : Byte, decode w ≠ .command (.setBcnt n)) {s t : State}
    (h : issue w s = .next t) : t.bcnt = s.bcnt := by
  obtain ⟨c, -, rfl⟩ | ⟨i, hd, -, rfl⟩ := issue_cases h
  · exact takeIllegal_bcnt c s
  · cases i
    case setBcnt n => exact absurd hd (hw n)
    all_goals rfl

/-- V_END is the only word that closes a validation, and while it is open no word writes BCNT. -/
theorem issue_of_collect {w : CmdWord} (hw : decode w ≠ .command .vEnd) {s t : State}
    (hs : s.vst = .collect) (h : issue w s = .next t) : t.vst = .collect ∧ t.bcnt = s.bcnt := by
  obtain ⟨c, -, rfl⟩ | ⟨i, hd, hl, rfl⟩ := issue_cases h
  · exact ⟨hs, takeIllegal_bcnt c s⟩
  · rw [hs] at hl
    cases i
    case vEnd => exact absurd hd hw
    case vBegin => exact ⟨rfl, rfl⟩
    case setBcnt => cases hl
    all_goals exact ⟨hs, rfl⟩

/-- Settles O40: BCNT stays 0 up to V_BEGIN and inside the validation, which stays open up to
V_END. -/
theorem unconfiguredValidationIsInvalidLength :
    Obligations.UnconfiguredValidationIsInvalidLength := by
  refine ⟨rfl, fun before inside s hs hbefore hinside => ?_⟩
  obtain ⟨u, hu, hrunBefore⟩ := runWords_keeps (P := fun s => s.bcnt = 0x00)
    (fun w hw _ _ hs h => (issue_bcnt (hbefore w hw) h).trans hs) hs
  obtain ⟨v, ⟨hopen, hbcnt⟩, hrunInside⟩ :=
    runWords_keeps (P := fun s => s.vst = .collect ∧ s.bcnt = 0x00)
      (fun w hw _ _ ⟨hopen, hbcnt⟩ h =>
        (issue_of_collect (hinside w hw) hopen h).imp_right fun hkept => hkept.trans hbcnt)
      (s := beginValidation u) ⟨rfl, hu⟩
  have hbad : badByteCount v.bcnt = true := by rw [hbcnt]; decide
  rw [List.append_assoc, hrunBefore, List.cons_append, runWords_cons_of_issue (issue_vBegin u),
    hrunInside, runWords_cons_of_issue (issue_vEnd_of_collect hopen)]
  exact ⟨_, rfl, resultCode_of_bad hbad, resultByte_of_bad hbad _, resultByte_of_bad hbad _, rfl⟩

end Sys2Proof.Proofs
end

section
/-! PROOFS of the statements on the validation sequence as a whole (42_frame_validator.md R151): the
pushes, the interleaved words, and the agreement with `Validate`. -/

namespace Sys2Proof.Proofs

open Sys2Proof.Machine Sys2Proof.Safety Sys2Proof.Laws

/-! ## The pushes (R30, R106, R145) -/

/-- Settles O52: V_BEGIN establishes R151's invariant and the pushes keep it. -/
theorem pushesStreamTheResponse : Obligations.PushesStreamTheResponse := by
  intro r s
  obtain ⟨t, ht, -, hrun⟩ := (pushed_beginValidation s).runWords_pushes r
  have hend := hrun []
  rw [List.append_nil, runWords_nil] at hend
  exact ⟨{ t with inputs := [] }, (runWords_cons_of_issue (issue_vBegin s) _).trans hend, ht.crc,
    ht.pend, ht.rcnt, ht.vst, ht.daddr, ht.cmd, ht.dlen, ht.bcnt, ht.code, ht.exp, ht.act,
    exec_crcRd_of_crc ht.crc⟩

/-! ## The interleaved words -/

/-- A word that may stand among those of a validation is illegal there or only answers. -/
theorem illegal_or_responds_of_interleaved {w : CmdWord} {s : State}
    (h : interleaved s.vst w = true) :
    (∃ c, illegalCause w s = some c) ∨ ∃ v, issue w s = .next (respond v s) := by
  cases hc : illegalCause w s with
  | some c => exact .inl ⟨c, rfl⟩
  | none =>
    obtain ⟨i, hd, hl⟩ := command_of_illegalCause_eq_none hc
    rw [interleaved, hd] at h
    rw [issue_of_command hd]
    cases i
    case tblRd | crcRd | rdStatus | rdExp | rdAct | rdEcause => exact .inr ⟨_, rfl⟩
    all_goals
      dsimp only at h
      rw [hl] at h
      cases h

/-- Settles O53: an illegal word has the effect of R171, and a read only answers. -/
theorem interleavedWordsDisturbNothing : Obligations.InterleavedWordsDisturbNothing := by
  intro w s h
  obtain ⟨c, hc⟩ | ⟨v, hv⟩ := illegal_or_responds_of_interleaved h
  · refine ⟨_, _, issue_of_illegalCause hc, fun hnone => ?_⟩
    cases hc.symm.trans hnone
  · exact ⟨s.ecause, v, hv, fun _ => rfl⟩

/-- Interleaved words outside a validation keep what does not speak of ECAUSE and RDATA. -/
theorem runWords_interleaved_of_idle {P : State → Prop}
    (hP : ∀ s e v, P s → P { s with ecause := e, rdata := v }) (hidle : ∀ s, P s → s.vst = .idle)
    {ws : List CmdWord} (hws : ∀ w ∈ ws, interleaved .idle w = true) {s : State} (hs : P s) :
    ∃ t, P t ∧ ∀ rest, runWords (ws ++ rest) s = runWords rest t := by
  refine runWords_keeps (fun w hw s t hs h => ?_) hs
  have hw : interleaved s.vst w = true := by rw [hidle s hs]; exact hws w hw
  obtain ⟨e, v, heffect, -⟩ := interleavedWordsDisturbNothing w s hw
  cases heffect.symm.trans h
  exact hP s e v hs

/-! ## The agreement with Validate -/

/-- The four parameters stand and no validation is open. -/
def Configured (a : Addr7) (c d n : Byte) (s : State) : Prop :=
  s.vst = .idle ∧ s.daddr = a ∧ s.cmd = c ∧ s.dlen = d ∧ s.bcnt = n

/-- A command that is legal outside a validation has its effect there, and the run goes on. -/
theorem runWords_encode_of_idle {i : Instr} (hi : illegalInState i .idle = none) {s : State}
    (hs : s.vst = .idle) (ws : List CmdWord) :
    runWords (encode i :: ws) s = runWords ws (legalEffect i s) := by
  have hl : illegalInState i s.vst = none := by rw [hs]; exact hi
  exact runWords_cons_of_issue ((issue_encode i s).trans (exec_of_legal hl)) ws

/-- The four SET commands configure an idle core. -/
theorem runWords_setupWords (a : Addr7) (c d n : Byte) {s : State} (hs : s.vst = .idle) :
    ∃ t, Configured a c d n t ∧
      ∀ rest, runWords (setupWords a c d n ++ rest) s = runWords rest t := by
  let s₁ := legalEffect (.setAddr a) s
  let s₂ := legalEffect (.setCmd c) s₁
  let s₃ := legalEffect (.setDlen d) s₂
  let s₄ := legalEffect (.setBcnt n) s₃
  refine ⟨s₄, ⟨hs, rfl, rfl, rfl, rfl⟩, fun rest => ?_⟩
  calc runWords (setupWords a c d n ++ rest) s
      = runWords (encode (.setCmd c) :: encode (.setDlen d) :: encode (.setBcnt n) :: rest) s₁ :=
        runWords_encode_of_idle rfl hs _
    _ = runWords (encode (.setDlen d) :: encode (.setBcnt n) :: rest) s₂ :=
        runWords_encode_of_idle rfl (s := s₁) hs _
    _ = runWords (encode (.setBcnt n) :: rest) s₃ := runWords_encode_of_idle rfl (s := s₂) hs _
    _ = runWords rest s₄ := runWords_encode_of_idle rfl (s := s₃) hs _

section
variable {a : Addr7} {c d n : Byte} {r : List Byte} {s : State}

/-- R151's invariant says nothing of ECAUSE and RDATA. -/
theorem Pushed.with_ecause_rdata (h : Pushed a c d n r s) (e v : Byte) :
    Pushed a c d n r { s with ecause := e, rdata := v } where
  vst := h.vst
  daddr := h.daddr
  cmd := h.cmd
  dlen := h.dlen
  bcnt := h.bcnt
  code := h.code
  exp := h.exp
  act := h.act
  crc := h.crc
  pend := h.pend
  rcnt := h.rcnt

/-- The words of an open validation push the response, whatever interleaved words stand among
them. -/
theorem Pushed.runWords_inside {inside : List CmdWord} {q : List Byte} (h : Pushed a c d n r s)
    (hq : inside.filter (fun w => !interleaved .collect w) = q.map (fun b => encode (.vPush b))) :
    ∃ t, Pushed a c d n (r ++ q) t ∧ ∀ rest, runWords (inside ++ rest) s = runWords rest t := by
  induction inside generalizing r s q with
  | nil =>
    have hnil : q = [] := List.map_eq_nil_iff.mp hq.symm
    exact ⟨s, by rwa [hnil, List.append_nil], fun _ => rfl⟩
  | cons w inside ih =>
    cases hw : interleaved .collect w with
    | true =>
      rw [List.filter_cons_of_neg (by rw [hw]; decide)] at hq
      have hw : interleaved s.vst w = true := by rw [h.vst]; exact hw
      obtain ⟨e, v, hissue, -⟩ := interleavedWordsDisturbNothing w s hw
      obtain ⟨t, ht, hrun⟩ := ih (h.with_ecause_rdata e v) hq
      exact ⟨t, ht, fun rest => (runWords_cons_of_issue hissue _).trans (hrun rest)⟩
    | false =>
      rw [List.filter_cons_of_pos (by rw [hw]; rfl)] at hq
      obtain ⟨b, q', rfl, rfl, hrest⟩ := List.map_eq_cons_iff.mp hq.symm
      obtain ⟨t, ht, hrun⟩ := ih (h.pushByte b) hrest.symm
      refine ⟨t, by rwa [List.append_assoc] at ht, fun rest => ?_⟩
      exact (runWords_cons_of_issue (issue_vPush_of_collect b h.vst) _).trans (hrun rest)

end

/-- The validation is closed, with the result of `Validate` and the CRC it was compared with. -/
def Reported (a : Addr7) (c d n : Byte) (r : List Byte) (s : State) : Prop :=
  (s.code, s.exp, s.act) = resultOf (validate a c d n r) r ∧
  s.crc = accumulate pecSeed (headerBytes a c d n ++ r.dropLast) ∧ s.vst = .idle

/-- Settles O54: the SET commands configure, V_BEGIN and the pushes keep R151's invariant, V_END
reports, and the interleaved words disturb none of it. -/
theorem commandSequenceAgreesWithValidate : Obligations.CommandSequenceAgreesWithValidate := by
  intro a c d n r before inside after s hs hbefore hinside hafter
  obtain ⟨t₁, h₁, hrun₁⟩ := runWords_setupWords a c d n hs
  obtain ⟨t₂, ⟨-, rfl, rfl, rfl, rfl⟩, hrun₂⟩ := runWords_interleaved_of_idle
    (P := Configured a c d n) (fun _ _ _ h => h) (fun _ ⟨hidle, _⟩ => hidle) hbefore h₁
  obtain ⟨t₃, h₃, hrun₃⟩ := (pushed_beginValidation t₂).runWords_inside hinside
  obtain ⟨t₄, ⟨hresult, hcrc, hidle⟩, hrun₄⟩ := runWords_interleaved_of_idle
    (P := Reported t₂.daddr t₂.cmd t₂.dlen t₂.bcnt r) (fun _ _ _ h => h)
    (fun _ ⟨_, _, hidle⟩ => hidle) hafter
    (s := respond (statusByte (closeValidation t₃)) (closeValidation t₃))
    ⟨h₃.closeValidation_eq_resultOf, h₃.crc, rfl⟩
  have hend := hrun₄ []
  rw [List.append_nil, runWords_nil] at hend
  refine ⟨{ t₄ with inputs := [] }, ?_, hresult, hcrc, hidle⟩
  rw [hrun₁, List.append_assoc, hrun₂, List.cons_append, runWords_cons_of_issue (issue_vBegin t₂),
    hrun₃, runWords_cons_of_issue (issue_vEnd_of_collect h₃.vst), hend]

end Sys2Proof.Proofs
end
